-- ==== Sys2Proof/Word.lean ====
section
/-! DEFINITION. The bit-vector types of the Taulen WC380: what the manual treats as bits and nothing else.
Weights, counts, numbers and times are `Nat` or `Int` elsewhere in the model. -/

namespace Sys2Proof

/-- One byte of a link frame or of a cell sample frame (A.2). -/
abbrev Byte := BitVec 8

/-- A two-byte field of a command body (A.3). -/
abbrev Half := BitVec 16

/-- The 32 data bits of a store word, or a four-byte field of a command body (section 8.1, A.3). -/
abbrev Word := BitVec 32

/-- A store word as the protected store holds it: 32 data bits, six check bits, one parity bit (section 8.1). -/
abbrev StoreWord := BitVec 39

end Sys2Proof
end

