-- ==== Sys2Proof/Syntax.lean ====
section
/-! DEFINITION. The commands of the controller: one constructor of `Instr` per row of spec/opcode_table.json, with the
fields the row's frame or event carries. The table gives no bits and no fields; the fields of a link command are those of
appendix A.3, each at its encoded width, after the code and the tag. -/

namespace Sys2Proof

/-- The four serial links (section 1 of the manual). -/
inductive Link
  | console | lane | inventory | service
  deriving DecidableEq, Repr

/-- The axle sensors: A and B at the entry edge, X at the exit edge (section 3.1). -/
inductive Sensor
  | A | B | X
  deriving DecidableEq, Repr

/-- The two end beams; the entry end is the end of sensors A and B (section 2.2). -/
inductive BeamEnd
  | entry | exit
  deriving DecidableEq, Repr

/-- What VISIT READ names: its body length tells a visit number from an identity (A.3). -/
inductive VisitKey
  | number (n : Half)
  | identity (bytes : List Byte)
  deriving DecidableEq, Repr

/-- The commands and events, in the order of spec/opcode_table.json.

An event row carries what the event brings with it: a frame's bytes, the sensor and the reading of the millisecond
counter, the new level of an input, how many words of a record had been written. A sample frame of which a byte came
before the end of the start-up scan is lost (R202), and comes with no bytes. A link command carries its tag and its fields;
an identity is its 17 bytes (length, then 16 character bytes). -/
inductive Instr
  | sampleFrame (port : Fin 18) (bytes : List Byte)
  | bridgeSample
  | afterWindowComplete
  | passGapTimeout
  | zeroTracking
  | weighWaitExpiry
  | calZeroComplete
  | auditPointExpiry
  | detection (sensor : Sensor) (ms : Nat)
  | pairingTimeout
  | endBeamChange (beam : BeamEnd) (blocked : Bool)
  | calibrationSwitch (closed : Bool)
  | powerFailWarning (wordsWritten : Nat)
  | powerFailWithdrawn
  | powerOn (wordsHeldUp : Nat) (backupLost : Bool)
  | startUpScanEnd
  | linksAcceptFrames
  | storeRecordWritten
  | scrubWrite
  | patrol
  | clockSecond
  | frameGapTimeout (link : Link) (bytes : List Byte)
  | frameDiscarded (link : Link) (bytes : List Byte)
  | lineBreak (link : Link)
  | responseFrameSent (link : Link)
  | linkRateChange (link : Link)
  | restartTakesEffect
  | restartDrainComplete
  | visitOpen (tag : Byte) (identity : List Byte) (direction : Byte) (commodity : Half) (onePass : Byte)
  | visitAmend (tag : Byte) (visit : Half) (commodity : Half)
  | visitVoid (tag : Byte) (visit : Half)
  | visitRelease (tag : Byte) (visit : Half)
  | visitRead (tag : Byte) (part : Byte) (key : VisitKey)
  | tareRead (tag : Byte) (identity : List Byte)
  | tareDelete (tag : Byte) (identity : List Byte)
  | zero (tag : Byte)
  | setTime (tag : Byte) (time : Word)
  | recordRead (link : Link) (tag : Byte) (part : Byte) (ticket : Word)
  | weighingRead (tag : Byte) (weighing : Word)
  | status (link : Link) (tag : Byte)
  | weigh (tag : Byte) (purpose : Byte) (identity : List Byte)
  | bridgeRead (tag : Byte)
  | bridgeRelease (tag : Byte)
  | passRead (tag : Byte) (first : Byte)
  | ticketTake (tag : Byte) (part : Byte)
  | ticketClear (tag : Byte) (ticket : Word)
  | visitList (tag : Byte) (start : Half)
  | calEnter (tag : Byte)
  | calSet (tag : Byte) (identifier : Byte) (value : Word)
  | mapSet (tag : Byte) (deck : Byte) (corner : Byte) (port : Byte)
  | calZero (tag : Byte)
  | calSpan (tag : Byte) (mass : Word)
  | calDeck (tag : Byte) (deck : Byte) (mass : Word)
  | calExitCommit (tag : Byte)
  | calExitDiscard (tag : Byte)
  | auditBegin (tag : Byte)
  | auditPoint (tag : Byte) (kind : Byte) (deck : Byte) (reference : Word)
  | auditEnd (tag : Byte)
  | auditAbort (tag : Byte)
  | trailRead (tag : Byte) (sequence : Word)
  | trailArchive (tag : Byte) (sequence : Word)
  | siteSet (tag : Byte) (identifier : Byte) (value : Word)
  | cellRead (tag : Byte) (port : Byte)
  | cellReadSummary (tag : Byte)
  | storeCounts (tag : Byte) (clear : Byte)
  | restart (tag : Byte)
  | lineReturnsToMarking (link : Link)
  | unknownCommandFrame (link : Link) (body : List Byte)
  deriving DecidableEq, Repr

end Sys2Proof
end

