-- ==== Sys2Proof/Config.lean ====
section
/-! DEFINITION. The value the manual leaves open, as a constant without a body: no proof can see what it is. -/

namespace Sys2Proof.Config

/-- The 16-bit signed field of an audit error in 0.1 e units where the error lies outside the field: the manual states the
field's width and no value there (log entry 3). -/
opaque errorField : Int → BitVec 16

end Sys2Proof.Config
end

