-- ==== Sys2Proof/Machine/Arith.lean ====
section
/-! DEFINITION. The manual's arithmetic: rounding with ties away from zero, counters that hold at their maximum, bounded
histories, two's complement fields. -/

namespace Sys2Proof.Machine

/-- A quotient rounded to the nearest whole number, ties away from zero (section 4.2). -/
def roundDiv (n : Int) (d : Nat) : Int :=
  let q : Int := ((2 * n.natAbs + d) / (2 * d) : Nat)
  if n < 0 then -q else q

/-- A value rounded to the nearest whole multiple of a step, ties away from zero (section 4.2, R17). -/
def roundTo (n : Int) (step : Nat) : Int := roundDiv n step * step

/-- A counter raised by one, holding at its maximum (section 4.5). -/
def satInc (max n : Nat) : Nat := min (n + 1) max

/-- A value appended to a history of the last `n`, oldest first (R13). -/
def pushLast {α : Type} (n : Nat) (h : List α) (x : α) : List α :=
  (h ++ [x]).drop (h.length + 1 - n)

/-- The last `n` values of a history, or all of them where there are fewer (R15). -/
def lastOf {α : Type} (n : Nat) (h : List α) : List α := h.drop (h.length - n)

/-- The exact sum of a list. -/
def sumInt : List Int → Int
  | [] => 0
  | x :: xs => x + sumInt xs

/-- The mean of a list rounded to a whole tenth; the mean of no values is 0 (R15, R19). -/
def meanInt (l : List Int) : Int := roundDiv (sumInt l) l.length

/-- The largest less the smallest of a list (R16). -/
def spanInt : List Int → Int
  | [] => 0
  | x :: xs => xs.foldl max x - xs.foldl min x

/-- The smaller bound of a magnitude: `v` clamped to ±`limit` (R35). -/
def clampTo (limit v : Int) : Int := max (-limit) (min limit v)

/-- The two's complement field of `w` bits that holds a signed value (A.1). -/
def twos (w : Nat) (v : Int) : Nat := (v % (2 ^ w : Nat)).toNat

/-- The signed value of a two's complement field of `w` bits (A.1). -/
def signed (w : Nat) (n : Nat) : Int := if n < 2 ^ (w - 1) then (n : Int) else (n : Int) - (2 ^ w : Nat)

/-- The first entry of a list that a test accepts, with the others in their order. -/
def takeFirst {α : Type} (p : α → Bool) : List α → Option (α × List α)
  | [] => none
  | x :: xs => if p x then some (x, xs) else (takeFirst p xs).map fun r => (r.1, x :: r.2)

/-- The smallest number from 0 up to a bound that a list does not hold. -/
def lowestFree (used : List Nat) (bound : Nat) : Option Nat :=
  (List.range bound).find? fun n => !used.contains n

end Sys2Proof.Machine
end

