-- ==== Sys2Proof/Machine/Types.lean ====
section
/-! DEFINITION. The data the nine blocks hold: fixed sets of names, and the records of the manual's tables as plain
structures. Weights are `Int` in tenths of a kilogram; numbers, counts and times are `Nat`. -/

namespace Sys2Proof.Machine

/-- A vehicle identity as its characters' six-bit codes: 1 to 10 the digits, 11 to 36 A to Z, 37 the hyphen (A.1). -/
abbrev Identity := List Nat

/-- A RECEIVAL truck arrives loaded, an OUTTURN truck arrives empty (section 5.1). -/
inductive Direction
  | receival | outturn
  deriving DecidableEq, Repr

/-! ## Cell intake unit (chapter 1) -/

/-- The four grades of a port (R5). -/
inductive CellState
  | absent | ok | suspect | fault
  deriving DecidableEq, Repr

/-- The last accepted frame of a port: its raw count and its saturation mark (section 1.1). -/
structure Latest where
  count : Int
  saturated : Bool
  deriving DecidableEq, Repr

/-- The port record of section 1.1. `fresh` is the model's own: a frame has been ACCEPTED since the last bridge sample, so that the value the sample uses is not held (R22). -/
structure PortRecord where
  latest : Option Latest
  arrival : Bool
  fresh : Bool
  fails : Nat
  goods : Nat
  checkErrors : Nat
  state : CellState
  deriving DecidableEq, Repr

/-! ## Parameters and settings (chapters 9 and 10) -/

/-- The verification scale interval e (section 4.1). -/
inductive Interval
  | e5 | e10 | e20 | e50 | e100
  deriving DecidableEq, Repr

/-- The filter window W (section 9.1). -/
inductive FilterWindow
  | w4 | w8 | w16 | w32
  deriving DecidableEq, Repr

/-- The four parameters of one logical position; `none` is ABSENT for the map and unset for the others (section 9.1). -/
structure PosParam where
  map : Option Nat
  offset : Option Int
  gain : Option Nat
  corner : Option Nat
  deriving DecidableEq, Repr

/-- The 71 metrological parameters (section 9.1). Position (d, c) is entry 4(d-1) + (c-1); `max` is in kilograms;
`fourCells` says that the cells per deck is 4 rather than 2. -/
structure ParamSet where
  max : Nat
  e : Interval
  decks : Nat
  fourCells : Bool
  window : FilterWindow
  stability : Nat
  tracking : Bool
  pos : Vector PosParam 16
  deriving DecidableEq, Repr

/-- A link's rate (R187). -/
inductive Baud
  | b9600 | b19200 | b38400 | b57600 | b115200
  deriving DecidableEq, Repr

/-- The four group limits of section 4.3, in kilograms; 0 is no check. -/
structure GroupLimits where
  single : Nat
  tandem : Nat
  triaxle : Nat
  quad : Nat
  deriving DecidableEq, Repr

/-- The site settings of R183. `grossLimits` holds the entries for 2 to 24 axles in order. -/
structure SiteSettings where
  waitTimer : Nat
  sensorSpacing : Nat
  groupSpacing : Nat
  speedLimit : Nat
  gapTimeout : Nat
  limits : GroupLimits
  grossLimits : Vector Nat 23
  minorBand : Nat
  hold : Bool
  autoOpen : Bool
  defaultDirection : Direction
  tareAge : Nat
  threshold : Nat
  listLimit : Nat
  mpeInService : Bool
  rateConsole : Baud
  rateLane : Baud
  rateInventory : Baud
  rateService : Baud
  deriving DecidableEq, Repr

/-- The verification status (R178). -/
inductive VerStatus
  | pending | verified | failed | integrity
  deriving DecidableEq, Repr

/-! ## Weighing unit (chapter 1) -/

/-- The range state (R18); `within` is IN. -/
inductive RangeState
  | within | over | under
  deriving DecidableEq, Repr, Inhabited

/-- The reasons for which a sample is INVALID; none set is VALID (R12). -/
structure Invalid where
  cellFault : Bool
  noValue : Bool
  unset : Bool
  unmapped : Bool
  deriving DecidableEq, Repr, Inhabited

/-- The value a bridge sample forms for one required position (R12): the port it was sent to, the value, and whether a zero
capture could not take it: sent to ABSENT, its port in FAULT, or no latest value (R159). -/
structure CellValue where
  pos : Nat
  port : Option Nat
  value : Int
  faulty : Bool
  deriving DecidableEq, Repr

/-- The bridge sample result of section 1.3.1. -/
structure SampleResult where
  cellValues : List CellValue
  deckSums : List Int
  rawTotal : Int
  gross : Int
  filtered : Int
  stable : Bool
  range : RangeState
  indicated : Option Int
  expanded : Option Int
  invalid : Invalid
  saturated : Bool
  deriving DecidableEq, Repr, Inhabited

/-- What the weighing unit hands the metrology unit for one required position (R22). -/
structure HandOff where
  pos : Nat
  raw : Option Int
  held : Bool
  state : CellState
  deriving DecidableEq, Repr

/-- The weighing unit's own state. Histories are oldest first; `emptyDue` says that R10's emptying takes place at the
next sample; `last` is the last completed sample's result; `tracking` is the count of R35. -/
structure Weighing where
  zOp : Int
  filterHist : List Int
  stabHist : List Int
  baseline : List Int
  samples : Nat
  emptyDue : Bool
  last : SampleResult
  tracking : Nat
  deriving DecidableEq, Repr

/-! ## Axle unit (chapters 3 and 4) -/

/-- A detection in the queue (section 3.1). -/
structure Detection where
  sensor : Sensor
  time : Nat
  deriving DecidableEq, Repr

/-- A forward crossing is A then B, a backward one B then A, an exit one is at X (section 3.2). -/
inductive CrossingKind
  | forward | backward | exit
  deriving DecidableEq, Repr

/-- A crossing as formed (section 3.2). -/
structure Crossing where
  kind : CrossingKind
  aTime : Option Nat
  bTime : Option Nat
  xTime : Option Nat
  speed : Option Nat
  deriving DecidableEq, Repr

/-- The window end of section 3.4. -/
inductive WindowEnd
  | running | complete | cut
  deriving DecidableEq, Repr

/-- An after-window (R55, R56); `mean` is M. -/
structure Window where
  progress : Nat
  sum : Int
  count : Nat
  state : WindowEnd
  mean : Option Int
  deriving DecidableEq, Repr

/-- An axle record (section 3.4); an UNCHECKED pass keeps no window. -/
structure AxleRecord where
  crossingSample : Nat
  aTime : Option Nat
  bTime : Option Nat
  xTime : Option Nat
  speed : Option Nat
  spacing : Option Int
  window : Option Window
  load : Option Int
  reported : Option Int
  merged : Bool
  overspeed : Bool
  deriving DecidableEq, Repr

/-- OPEN, CLOSED or ABORTED (section 3.4). -/
inductive PassState
  | opened | closed | aborted
  deriving DecidableEq, Repr

/-- CHECKED or UNCHECKED (section 3.4). -/
inductive PassKind
  | checked | unchecked
  deriving DecidableEq, Repr

/-- The end a vehicle entered at (section 2.1). -/
inductive EntryEnd
  | pair | x
  deriving DecidableEq, Repr

/-- The marks of a pass (R64). -/
structure PassMarks where
  followOn : Bool
  reversed : Bool
  sensorFault : Bool
  cellFault : Bool
  overspeed : Bool
  calMode : Bool
  deriving DecidableEq, Repr

/-- The close reason (section 3.4). -/
inductive CloseReason
  | normal | tooManyAxles | detectionOverrun | released
  deriving DecidableEq, Repr

/-- One group of a summary: its axle count and its exact load; the other fields of section 4.1's group record are formed
from these (R203). -/
structure AxleGroup where
  count : Nat
  load : Int
  deriving DecidableEq, Repr

/-- The reasons of the INDICATIVE mark (section 4.1). -/
structure Indicative where
  overspeed : Bool
  cellFault : Bool
  inconsistent : Bool
  generation : Bool
  deriving DecidableEq, Repr

/-- The axle summary, by the fields its store layout holds (section 4.1, A.4). -/
structure AxleSummary where
  openedAt : Nat
  generation : Nat
  e : Interval
  groups : List AxleGroup
  band : Nat
  limits : GroupLimits
  grossLimit : Nat
  marks : PassMarks
  indicative : Indicative
  deriving DecidableEq, Repr

/-- The type of a group (R70). -/
inductive GroupType
  | single | tandem | triaxle | quad | irregular
  deriving DecidableEq, Repr

/-- A verdict (R72). -/
inductive Verdict
  | within | minor | major | unchecked
  deriving DecidableEq, Repr

/-- A group record as reported (section 4.1): its fields are formed from the summary. -/
structure GroupReport where
  first : Nat
  count : Nat
  type : GroupType
  load : Int
  reported : Int
  limit : Nat
  verdict : Verdict
  deriving DecidableEq, Repr

/-- The current pass (section 3.4). `samples` counts the samples completed since the opening. -/
structure Pass where
  openedAt : Nat
  state : PassState
  kind : PassKind
  entryEnd : EntryEnd
  marks : PassMarks
  m0 : Option Int
  axles : List AxleRecord
  gap : Nat
  samples : Nat
  reason : Option CloseReason
  eAtClose : Option Interval
  loadSum : Option Int
  summary : Option AxleSummary
  deriving DecidableEq, Repr

/-- The axle unit: its millisecond counter, the detection queue (head first) and the current pass; `none` is IDLE. -/
structure AxleUnit where
  ms : Nat
  queue : List Detection
  pass : Option Pass
  deriving DecidableEq, Repr

/-! ## Bridge monitor (chapter 2) -/

/-- The bridge state; WEIGHING has the phases WAITING and RECORDING (section 2.1). -/
inductive BridgeState
  | start | empty | entering | standing | waiting | recording | leaving
  deriving DecidableEq, Repr

/-- The purposes of a WEIGH (section 2.4). -/
inductive Purpose
  | weighNext | tareRecord
  deriving DecidableEq, Repr

/-- The roles a binding records, in the order of R90. -/
inductive Role
  | first | second | onePass | tare
  deriving DecidableEq, Repr

/-- What a WEIGH is bound to (R37, R90): a visit with its role and gone-mark, auto-open at capture, or the tare table. -/
inductive Binding
  | visit (role : Role) (number : Nat) (gone : Bool)
  | autoOpen
  | tare
  deriving DecidableEq, Repr

/-- The capture record of R38. -/
structure Capture where
  identity : Identity
  purpose : Purpose
  binding : Binding
  weight : Int
  e : Interval
  generation : Nat
  status : VerStatus
  time : Nat
  pass : Option Nat
  deriving DecidableEq, Repr

/-- The WEIGH request in flight (section 2.1); a wait limit of `none` is no limit. -/
structure Request where
  identity : Identity
  purpose : Purpose
  binding : Binding
  capture : Option Capture
  waitCount : Nat
  waitLimit : Option Nat
  deriving DecidableEq, Repr

/-- An end beam: its recorded level, its change mark, and its level at the last bridge sample (R32, R39). -/
structure Beam where
  blocked : Bool
  changed : Bool
  atSample : Bool
  deriving DecidableEq, Repr

/-- The bridge monitor's record (section 2.1); an axles-on count of `none` is UNKNOWN. -/
structure Bridge where
  state : BridgeState
  count : Option Int
  entryEnd : EntryEnd
  entryBeam : Beam
  exitBeam : Beam
  request : Option Request
  leavingSeen : Bool
  heldRelease : Bool
  deriving DecidableEq, Repr

/-! ## Yard register (chapter 5) -/

/-- The states of a visit (section 5.1). -/
inductive VisitState
  | awaitingFirst | opened | held
  deriving DecidableEq, Repr

/-- Who opened a visit (section 5.1). -/
inductive OpenedBy
  | console | auto
  deriving DecidableEq, Repr

/-- A visit's first weighing (section 5.1). -/
structure FirstWeighing where
  number : Nat
  weight : Int
  time : Nat
  e : Interval
  generation : Nat
  status : VerStatus
  deriving DecidableEq, Repr

/-- A visit record (section 5.1) with the visit slot it keeps (R140). -/
structure Visit where
  number : Nat
  identity : Identity
  direction : Direction
  commodity : Option Nat
  onePass : Bool
  loadedFirst : Bool
  state : VisitState
  openedBy : OpenedBy
  first : Option FirstWeighing
  summary : Option AxleSummary
  heldReleased : Bool
  overloadReturn : Bool
  slot : Nat
  deriving DecidableEq, Repr

/-- The in-use visit of R84; `leaving` says that its capture is removing it. -/
structure InUse where
  number : Nat
  leaving : Bool
  deriving DecidableEq, Repr

/-- The yard register: the live visits in rising order of visit number, the last allocated number, the in-use visit. -/
structure Yard where
  visits : List Visit
  lastNumber : Nat
  inUse : Option InUse
  deriving DecidableEq, Repr

/-! ## Ticket unit (chapters 6 and 7) -/

/-- A stored-tare entry (section 6.1) with the tare slot it keeps. -/
structure TareEntry where
  identity : Identity
  weight : Int
  time : Nat
  e : Interval
  generation : Nat
  status : VerStatus
  weighing : Nat
  slot : Nat
  deriving DecidableEq, Repr

/-- The judgment of a stored tare (R105); `timeUnset` is given by TARE READ alone (R106). -/
inductive Judgment
  | valid | generation | future | age | absent | timeUnset
  deriving DecidableEq, Repr

/-- The purpose of a weighing record (R108). -/
inductive RecordPurpose
  | first | second | onePass | tare | unattached
  deriving DecidableEq, Repr

/-- A weighing record (R108). -/
structure WeighingRecord where
  number : Nat
  identity : Identity
  time : Nat
  weight : Int
  e : Interval
  status : VerStatus
  purpose : RecordPurpose
  generation : Nat
  visit : Option Nat
  deriving DecidableEq, Repr

/-- The reasons of a NOT_FOR_TRADE ticket, in the order of A.4 (R114). -/
structure TradeReasons where
  mixedCal : Bool
  pendingVerify : Bool
  failedVerify : Bool
  integrity : Bool
  deriving DecidableEq, Repr

/-- A ticket record (R113): `tareStored` is the tare source STORED, and `tareNumber`, `tareTime` are then the stored
entry's weighing number and recording time; `formedByTare` says that the forming capture is the tare. -/
structure Ticket where
  number : Nat
  visit : Nat
  identity : Identity
  direction : Direction
  commodity : Nat
  gross : Int
  grossE : Interval
  grossStatus : VerStatus
  grossGeneration : Nat
  grossNumber : Nat
  grossTime : Nat
  tare : Int
  tareE : Interval
  tareStatus : VerStatus
  tareGeneration : Nat
  tareStored : Bool
  tareNumber : Nat
  tareTime : Nat
  formedByTare : Bool
  forTrade : Bool
  reasons : TradeReasons
  heldReleased : Bool
  autoOpened : Bool
  overloadReturn : Bool
  summary : Option AxleSummary
  deriving DecidableEq, Repr

/-- A ticket queue entry (section 7.1); no ticket is the DAMAGED mark of R124. -/
structure QueueTicket where
  number : Nat
  posted : Bool
  ticket : Option Ticket
  takes : Nat
  slot : Nat
  deriving DecidableEq, Repr

/-- The ticket unit: the stored-tare table in slot order, the last numbers, the ticket queue in ticket-number order. -/
structure Tickets where
  tares : List TareEntry
  lastWeighing : Nat
  lastTicket : Nat
  queue : List QueueTicket
  deriving DecidableEq, Repr

/-! ## Metrology unit (chapters 9 and 10) -/

/-- A CAL ZERO capture in progress (section 9.1). -/
structure ZeroCapture where
  count : Nat
  sums : Vector Int 16
  deriving DecidableEq, Repr

/-- The kinds of an audit point (section 10.1). -/
inductive PointKind
  | zero | loadUp | loadDown | deck | repeated
  deriving DecidableEq, Repr

/-- A recorded audit point (section 10.1); `reference` is in kilograms. -/
structure AuditPoint where
  kind : PointKind
  deck : Nat
  reference : Nat
  indication : Int
  error : Int
  mpe : Int
  pass : Bool
  time : Nat
  deriving DecidableEq, Repr

/-- The waiting point (section 10.1). -/
structure WaitingPoint where
  kind : PointKind
  deck : Nat
  reference : Nat
  waitCount : Nat
  waitLimit : Option Nat
  deriving DecidableEq, Repr

/-- An open audit session (section 10.1). -/
structure Session where
  begunAt : Nat
  generation : Nat
  e : Interval
  decks : Nat
  inService : Bool
  points : List AuditPoint
  waiting : Option WaitingPoint
  deriving DecidableEq, Repr

/-- The source of a read (R138). -/
inductive ReadSource
  | scan | patrol | read
  deriving DecidableEq, Repr

/-- The reason of an INTEGRITY_EVENT (R179). -/
inductive IntegrityReason
  | damagedRecord | lostRecord | commitCut
  deriving DecidableEq, Repr

/-- An entry of the list of integrity writes (R185). -/
structure Finding where
  reason : IntegrityReason
  sequence : Nat
  source : ReadSource
  deriving DecidableEq, Repr

/-- The metrology unit. Calibration mode is ACTIVE where `working` is present; `statusSeq` is the status sequence of the
counters block (R178); `paramHeld` is false from a blank start until the parameter block is first written (R151);
`lastSeq` and `boundary` are the trail position of section 10.4. -/
structure Metrology where
  current : ParamSet
  site : SiteSettings
  generation : Nat
  status : VerStatus
  statusSeq : Nat
  paramHeld : Bool
  working : Option ParamSet
  differs : Bool
  zeroCapture : Option ZeroCapture
  switchClosed : Bool
  session : Option Session
  lastSeq : Nat
  boundary : Nat
  findings : List Finding
  deriving DecidableEq, Repr

/-! ## Audit trail records (section 10.4) -/

/-- The body of a trail record by its kind (R179, A.4). Values of parameters and settings stand as CAL SET and SITE SET carry them;
a parameter value of `none` is unset. -/
inductive TrailBody
  | calCommit (oldMax : Nat) (oldE : Interval) (before : VerStatus) (newMax : Nat) (newE : Interval) (params : Nat)
      (generationBefore : Nat)
  | param (identifier : Nat) (old new : Option Int)
  | auditResult (pass noCoverage pointFail inService : Bool) (points : Nat) (e : Interval) (worst : BitVec 16)
      (begunAt : Nat) (generation : Nat)
  | siteChange (identifier : Nat) (old new : Int)
  | timeSet (old : Option Nat) (new : Nat)
  | integrityEvent (reason : IntegrityReason) (source : ReadSource) (sequence : Nat)
  | archive (boundary archived unarchived : Nat)
  deriving DecidableEq, Repr

/-- A trail record (R179). -/
structure TrailRecord where
  sequence : Nat
  time : Option Nat
  generation : Nat
  body : TrailBody
  deriving DecidableEq, Repr

/-! ## Answers and attention causes (chapter 11) -/

/-- The status values, in the order of the table of section 11.7, which gives their codes. -/
inductive Status
  | ok | none | empty | invalid | busy | range | storeBusy | notFound | damaged | calMode | audit | timeUnset
  | cellFault | overRange | underRange | belowMin | position | unstable | notStanding | notEmpty | moved | released
  | zeroRange | noVisit | held | noCommodity | visitVoided | visitExpired | registerFull | negativeNet | queueFull
  | overloadHold | numbersExhausted | tareTableFull | noTare | duplicate | visitInUse | notHeld | notPosted
  | switchOpen | bridgeBusy | notCalMode | duplicatePort | adjustRange | incomplete | generationLimit | auditFull
  | notInAudit | pointBusy | sessionFull | aborted | nothingToArchive
  deriving DecidableEq, Repr

/-- What caused VERIFY_STATUS (R178). -/
inductive VerifyCause
  | commit | audit | integrity | start
  deriving DecidableEq, Repr

/-- The regions of the protected store, in the order of R140. -/
inductive Region
  | parameters | counters | visits | tares | queue | weighings | tickets | trail
  deriving DecidableEq, Repr

/-- The attention causes with the data their rules name (section 11.4). -/
inductive Cause
  | storeFault (region : Region) (slot : Nat) (key : Option Nat) (source : ReadSource)
  | cellState (port : Nat) (state : CellState)
  | verifyStatus (status : VerStatus) (generation : Nat) (cause : VerifyCause)
  | visitHeld (visit : Nat) (identity : Identity) (worst : Verdict)
  | visitExpired (visit : Nat) (identity : Identity) (weighing : Nat)
  | visitDamaged (visit : Nat)
  | queueFull (count : Nat) (head : Nat)
  | clockInvalid (time : Nat)
  | sensorMismatch (count : Option Int)
  | passClosed (openedAt : Nat) (kind : PassKind) (reason : CloseReason) (axles : Nat) (marks : PassMarks)
  | wrongWay
  | beamChange (beam : BeamEnd) (blocked : Bool)
  | bridgeState (state : BridgeState) (count : Option Int)
  | ticketAvailable (posted : Nat) (ticket : Nat)
  | calAborted (differs : Bool)
  | trailNearFull (unarchived free : Nat)
  deriving DecidableEq, Repr

/-- A pending cause with its repeat count (R195). -/
structure Pending where
  cause : Cause
  repeats : Nat
  deriving DecidableEq, Repr

/-- The note of a stored tare in a WEIGH response (A.3, offsets 3 and 4). -/
inductive TareNote
  | none | invalid (judgment : Judgment) | created | replaced
  deriving DecidableEq, Repr

/-- The visit state after a capture (A.3, offset 6). -/
inductive VisitAfter
  | awaitingFirst | opened | held | leaving
  deriving DecidableEq, Repr

/-- The summary fields of a WEIGH response (R80): none, a summary absent, or its verdicts and INDICATIVE reasons. -/
inductive SummaryField
  | noFields
  | absent
  | present (worst gross : Verdict) (indicative : Indicative)
  deriving DecidableEq, Repr

/-- The result fields of a WEIGH response that records a weighing (A.3). -/
structure WeighFields where
  note : TareNote
  role : Option Role
  visitState : Option VisitAfter
  visit : Option Nat
  weighing : Nat
  weight : Int
  ticket : Option Nat
  net : Option Int
  summary : SummaryField
  deriving DecidableEq, Repr

/-- The outcome of a WEIGH: its status, with the result fields where a weighing is recorded. -/
structure WeighResult where
  status : Status
  fields : Option WeighFields
  deriving DecidableEq, Repr

/-- A visit as VISIT LIST gives it (R131). -/
structure VisitSummary where
  number : Nat
  identity : Identity
  direction : Direction
  state : VisitState
  openedBy : OpenedBy
  commodity : Option Nat
  onePass : Bool
  first : Option (Nat × Int × Nat)
  verdict : Option (Verdict × Indicative)
  heldReleased : Bool
  overloadReturn : Bool
  inUse : Bool
  leaving : Bool
  deriving DecidableEq, Repr

/-- The pass fields of BRIDGE READ (R66). -/
structure PassBrief where
  kind : PassKind
  marks : PassMarks
  state : PassState
  axles : Nat
  deriving DecidableEq, Repr

/-- The request fields of BRIDGE READ (R44). -/
structure RequestBrief where
  identity : Identity
  purpose : Purpose
  role : Option Role
  recording : Bool
  waitCount : Nat
  waitLimit : Option Nat
  deriving DecidableEq, Repr

/-- The answer of BRIDGE READ (R44). -/
structure BridgeReport where
  state : BridgeState
  count : Option Int
  entryBlocked : Bool
  entryChanged : Bool
  exitBlocked : Bool
  exitChanged : Bool
  filtered : Int
  range : RangeState
  indicated : Option Int
  stable : Bool
  invalid : Invalid
  zOp : Int
  zeroLimit : Int
  pass : Option PassBrief
  request : Option RequestBrief
  heldRelease : Bool
  deriving DecidableEq, Repr

/-- An axle record as PASS READ gives it, its times after the opened-at time (R65). -/
structure AxleReport where
  number : Nat
  crossingSample : Nat
  aTime : Option Int
  bTime : Option Int
  xTime : Option Int
  speed : Option Nat
  spacing : Option Int
  windowEnd : Option WindowEnd
  windowCount : Option Nat
  mean : Option Int
  load : Option Int
  reported : Option Int
  merged : Bool
  overspeed : Bool
  deriving DecidableEq, Repr

/-- The pass header of PASS READ (R65). -/
structure PassHeader where
  openedAt : Nat
  state : PassState
  kind : PassKind
  entryEnd : EntryEnd
  marks : PassMarks
  m0 : Option Int
  axles : Nat
  gap : Nat
  reason : Option CloseReason
  eAtClose : Option Interval
  loadSum : Option Int
  deriving DecidableEq, Repr

/-- The answer of CELL READ for one port (R20). -/
structure CellReport where
  port : Nat
  state : CellState
  position : Option Nat
  required : Bool
  latest : Option Latest
  fails : Nat
  goods : Nat
  checkErrors : Nat
  value : Option Int
  invalid : Invalid
  range : RangeState
  stable : Bool
  deriving DecidableEq, Repr

/-- The answer of CELL READ for port 255 (R21): `notOk` lists position, port and state. -/
structure CellSummary where
  states : List CellState
  absent : Nat
  ok : Nat
  suspect : Nat
  fault : Nat
  notOk : List (Nat × Option Nat × CellState)
  deckSums : List Int
  deriving DecidableEq, Repr

/-- How many slots of a region the last scan gave each class (R147). -/
structure ClassCounts where
  valid : Nat
  absent : Nat
  interrupted : Nat
  damaged : Nat
  deriving DecidableEq, Repr

/-- The answer of STORE COUNTS (R152). -/
structure StoreReport where
  corrected : Nat
  uncorrectable : Nat
  queued : Nat
  longEntering : Bool
  waiting : Nat
  counts : List ClassCounts
  damaged : Nat
  blankStart : Bool
  patrol : Nat
  sweeps : Nat
  deriving DecidableEq, Repr

/-- The fields of an axle summary that part 0 of a read carries beside those its layout holds (section 4.1, R194): the axle count,
the reported sum, the gross verdict and the worst verdict. -/
structure SummaryFigures where
  axles : Nat
  reportedSum : Int
  gross : Verdict
  worst : Verdict
  deriving DecidableEq, Repr

/-- The result fields a response carries, by the rule that answers. A visit or a ticket stands in part 0 with the groups of its
summary left out, and the summary's figures beside it (R194). -/
inductive Body
  | none
  | noteNoChange
  | number (n : Nat)
  | visit (v : Visit) (figures : Option SummaryFigures) (inUse leaving : Bool) (request : Option (Role × Bool))
      (parts groups : Nat)
  | groups (part key : Nat) (list : List GroupReport)
  | tare (entry : TareEntry) (judgment : Judgment) (age : Option Nat)
  | zOp (z : Int)
  | timeSet (old : Option Nat) (sequence : Nat)
  | ticket (t : Ticket) (figures : Option SummaryFigures) (parts groups : Nat)
  | take (number takes posted pending : Nat) (t : Option Ticket) (figures : Option SummaryFigures) (parts groups : Nat)
  | weighing (w : WeighingRecord)
  | status (cause : Option Pending) (left errors time : Nat) (valid : Bool)
  | weigh (f : WeighFields)
  | bridge (r : BridgeReport)
  | passIdle
  | pass (h : PassHeader) (axles : List AxleReport)
  | visitList (visits : List VisitSummary) (live next : Nat)
  | calEnter (generation : Nat) (status : VerStatus)
  | calSet (old : Option Int) (new : Int)
  | mapSet (old : Option Nat)
  | positions (list : List Nat)
  | offsets (list : List (Nat × Int))
  | scaled (reference filtered : Int) (list : List (Nat × Nat × Nat))
  | incomplete (position : Nat)
  | commit (generation params sequence : Nat)
  | auditBegin (generation : Nat) (status : VerStatus) (inService : Bool) (e : Interval) (decks : Nat)
  | point (number : Nat) (indication error errorE mpe : Int) (pass : Bool)
  | auditEnd (pass noCoverage pointFail : Bool) (worst : Int) (sequence : Nat)
  | trail (record : Option TrailRecord) (sequence : Option Nat) (archived : Bool) (last boundary unarchived free : Nat)
  | archive (sequence unarchived free : Nat)
  | cell (r : CellReport)
  | cells (r : CellSummary)
  | store (r : StoreReport)
  deriving DecidableEq, Repr

/-- A response waiting in a transmit queue: the command's code and tag, the status and the result fields (R191). -/
structure Response where
  code : Byte
  tag : Byte
  status : Status
  body : Body
  deriving DecidableEq, Repr

/-! ## Store controller (chapter 8) -/

/-- The class of a slot (R147), and the GIVEN mark of R142. -/
inductive SlotClass
  | valid | absent | interrupted | damaged | given
  deriving DecidableEq, Repr

/-- The slot index's entry for an archive or trail slot. -/
structure IndexEntry where
  cls : SlotClass
  key : Nat
  deriving DecidableEq, Repr

/-- The next-write copy and next copy count of a paired slot (R141). -/
structure PairState where
  nextCopy : Nat
  nextCount : Nat
  deriving DecidableEq, Repr

/-- What happens when the last record of an operation is written (R144): which block answers whom, and with what. -/
inductive Done
  | nothing
  | weigh (result : WeighResult) (causes : List Cause) (ticket : Option Nat)
  | answer (link : Link) (status : Status) (body : Body)
  | ticketClear
  | post (ticket : Nat)
  | setTime (new : Nat) (old : Option Nat) (sequence : Nat)
  | siteSet (sequence : Nat) (rate : Option (Link × Baud))
  | commit (generation params sequence : Nat)
  | auditEnd (pass noCoverage pointFail : Bool) (worst : Int) (sequence : Nat) (changed : Bool)
  | archive (sequence : Nat)
  deriving DecidableEq, Repr

/-- A record write as a block offers it: its region and slot, the kind (A.4's code), the key and the words between the
first and the last. A removal has kind 0 and no words between. -/
structure RecordSpec where
  region : Region
  slot : Nat
  kind : Nat
  key : Nat
  body : List Word
  deriving DecidableEq, Repr

/-- An entry of the write queue: a record write with the copy and copy count it was given, carrying its operation's report
where it is the operation's last record; or a scrub write of one word (section 8.3). -/
inductive QueueEntry
  | record (spec : RecordSpec) (copy count : Nat) (report : Option Done)
  | scrub (address : Nat)
  deriving DecidableEq, Repr

/-- The store controller's volatile state. `waiting` holds the records of a long operation, or start-up writes, not yet in
the queue; `cut` holds the word writes a power-fail warning leaves to the hold-up supply (R145). -/
structure Store where
  queue : List QueueEntry
  waiting : List QueueEntry
  corrected : Nat
  uncorrectable : Nat
  index : List (Nat × IndexEntry)
  pairs : List (Nat × PairState)
  blankStart : Bool
  counts : List ClassCounts
  patrol : Nat
  sweeps : Nat
  cut : List (Nat × StoreWord)
  deriving DecidableEq, Repr

/-! ## Link unit (chapter 11) -/

/-- The receive assembly of a link (R189): in BODY, the length and the bytes taken so far, the two check bytes among them. -/
inductive Assembly
  | hunting
  | length
  | body (len : Byte) (got : List Byte)
  deriving DecidableEq, Repr

/-- The command in a slot; `silent` says that a break has taken its response away (R190). -/
structure Slot where
  code : Byte
  tag : Byte
  silent : Bool
  deriving DecidableEq, Repr

/-- One link: its receive assembly, whether a break holds it, the command slot (`none` is IDLE), the code and tag of a
handed-off command, the transmit queue of up to 8 responses, the responses formed while it held 8 that wait for a place, the
pending causes in priority order, the error count, its rate, and the rates that SITE SETs have given and that have not yet
taken effect, each with the number of service responses still to be sent before it does (R187 to R195). -/
structure LinkState where
  assembly : Assembly
  breakHeld : Bool
  slot : Option Slot
  handedOff : Option (Byte × Byte)
  tx : List Response
  waiting : List Response
  causes : List Pending
  errors : Nat
  rate : Baud
  newRates : List (Baud × Nat)
  deriving DecidableEq, Repr

/-- The four links. -/
structure Links where
  console : LinkState
  lane : LinkState
  inventory : LinkState
  service : LinkState
  deriving DecidableEq, Repr

/-- The real-time clock (R197). -/
structure Clock where
  count : Nat
  valid : Bool
  deriving DecidableEq, Repr

/-- The levels of the field inputs (section 1 of the manual). -/
structure Pins where
  entryBlocked : Bool
  exitBlocked : Bool
  switchClosed : Bool
  deriving DecidableEq, Repr

/-- Where the controller stands between power-on and power loss (section 11.6): the scan runs; the start-up writes are
being written; the links accept frames; RESTART is draining the write queue; the power-fail warning stands. -/
inductive Phase
  | scanning | startWrites | running | draining | powerFail
  deriving DecidableEq, Repr

end Sys2Proof.Machine
end

