-- ==== Sys2Proof/Machine/Params.lean ====
section
/-! DEFINITION. The metrological parameters and the site settings: their blank and default values, their derived figures,
and reading and setting one of them by its identifier of A.4. -/

namespace Sys2Proof.Machine

/-- The verification scale interval in kilograms (section 4.1). -/
def Interval.kg : Interval → Nat
  | .e5 => 5 | .e10 => 10 | .e20 => 20 | .e50 => 50 | .e100 => 100

/-- The e of a value in kilograms, where it is one (section 9.1). -/
def Interval.ofKg : Int → Option Interval
  | 5 => some .e5 | 10 => some .e10 | 20 => some .e20 | 50 => some .e50 | 100 => some .e100 | _ => none

/-- The filter window W (section 9.1). -/
def FilterWindow.size : FilterWindow → Nat
  | .w4 => 4 | .w8 => 8 | .w16 => 16 | .w32 => 32

/-- The filter window of a size, where it is one. -/
def FilterWindow.ofSize : Int → Option FilterWindow
  | 4 => some .w4 | 8 => some .w8 | 16 => some .w16 | 32 => some .w32 | _ => none

/-- A rate in baud (R187). -/
def Baud.rate : Baud → Nat
  | .b9600 => 9600 | .b19200 => 19200 | .b38400 => 38400 | .b57600 => 57600 | .b115200 => 115200

/-- The rate of a baud figure, where it is one. -/
def Baud.ofRate : Int → Option Baud
  | 9600 => some .b9600 | 19200 => some .b19200 | 38400 => some .b38400 | 57600 => some .b57600
  | 115200 => some .b115200 | _ => none

/-- A position with nothing mapped and nothing set (R8). -/
def PosParam.blank : PosParam := ⟨none, none, none, none⟩

/-- The blank parameter set of R8. -/
def ParamSet.blank : ParamSet :=
  { max := 60000, e := .e20, decks := 1, fourCells := true, window := .w16, stability := 100, tracking := false,
    pos := Vector.replicate 16 PosParam.blank }

/-- The defaults of R183. -/
def SiteSettings.defaults : SiteSettings :=
  { waitTimer := 30, sensorSpacing := 1000, groupSpacing := 2500, speedLimit := 10, gapTimeout := 4,
    limits := ⟨0, 0, 0, 0⟩, grossLimits := Vector.replicate 23 0, minorBand := 5, hold := false, autoOpen := false,
    defaultDirection := .receival, tareAge := 90, threshold := 1, listLimit := 0, mpeInService := false,
    rateConsole := .b19200, rateLane := .b19200, rateInventory := .b19200, rateService := .b19200 }

/-- The index of position (deck d, corner c), d and c from 1. -/
def posIndex (deck corner : Nat) : Nat := 4 * (deck - 1) + (corner - 1)

/-- The required positions of R9, by index. -/
def ParamSet.required (p : ParamSet) (i : Nat) : Bool :=
  decide (i < 16) && decide (i / 4 < p.decks) && (p.fourCells || decide (i % 4 < 2))

/-- The required positions in order. -/
def ParamSet.requiredList (p : ParamSet) : List Nat := (List.range 16).filter p.required

/-- The parameters of a position by index; an index outside the sixteen has none. -/
def ParamSet.at (p : ParamSet) (i : Nat) : PosParam := p.pos[i]?.getD PosParam.blank

/-- The set with one position changed. -/
def ParamSet.setAt (p : ParamSet) (i : Nat) (v : PosParam) : ParamSet :=
  { p with pos := p.pos.setIfInBounds i v }

/-- The ports in use: those a required position sends to (R6, R9). -/
def ParamSet.inUse (p : ParamSet) (port : Nat) : Bool :=
  p.requiredList.any fun i => (p.at i).map == some port

/-- The position that sends to a port, required or not (R20). -/
def ParamSet.positionOf (p : ParamSet) (port : Nat) : Option Nat :=
  (List.range 16).find? fun i => (p.at i).map == some port

/-- The cell arithmetic of a set, as R10 lists it: the map, the deck layout, and the offset, gain and corner factor of each
required position. -/
def ParamSet.arithmetic (p : ParamSet) : List (Option Nat) × Nat × Bool × List PosParam :=
  (p.pos.toList.map (·.map), p.decks, p.fourCells, p.requiredList.map p.at)

/-- The zero limit of R33, in tenths. -/
def ParamSet.zeroLimit (p : ParamSet) : Int := ((p.max * 10 * 2 / 100 : Nat) : Int)

/-- The empty threshold of R23, in tenths, which is also Min. -/
def ParamSet.emptyThreshold (p : ParamSet) : Int := 200 * p.e.kg

/-- A Boolean setting on the link: its enumeration is coded from 1 (A.1; log entry 4 for the settings' codes). -/
def codeOf (second : Bool) : Int := if second then 2 else 1

/-- A parameter's value by its PARAM identifier of A.4; `none` is unset, and a map value of ABSENT is −1. -/
def ParamSet.get (p : ParamSet) (id : Nat) : Option Int :=
  match id with
  | 1 => some p.max
  | 2 => some p.e.kg
  | 3 => some p.decks
  | 4 => some (if p.fourCells then 4 else 2)
  | 5 => some p.window.size
  | 6 => some p.stability
  | 7 => some (codeOf (!p.tracking))
  | n =>
    let v := p.at ((n - 8) / 4)
    match (n - 8) % 4 with
    | 0 => some (match v.map with | some port => (port : Int) | none => -1)
    | 1 => v.offset
    | 2 => v.gain.map fun (g : Nat) => (g : Int)
    | _ => v.corner.map fun (k : Nat) => (k : Int)

/-- Whether a value lies in an inclusive range. -/
def inRange (low high v : Int) : Bool := decide (low ≤ v) && decide (v ≤ high)

/-- CAL SET's edit of one parameter within the ranges of section 9.1; `none` is RANGE. A map entry is not set here (R157). -/
def ParamSet.set? (p : ParamSet) (id : Nat) (v : Int) : Option ParamSet :=
  match id with
  | 1 => if inRange 1 200000 v then some { p with max := v.toNat } else none
  | 2 => (Interval.ofKg v).map fun e => { p with e := e }
  | 3 => if inRange 1 4 v then some { p with decks := v.toNat } else none
  | 4 => if v = 2 then some { p with fourCells := false } else if v = 4 then some { p with fourCells := true } else none
  | 5 => (FilterWindow.ofSize v).map fun w => { p with window := w }
  | 6 => if inRange 50 200 v then some { p with stability := v.toNat } else none
  | 7 => if v = 1 then some { p with tracking := true } else if v = 2 then some { p with tracking := false } else none
  | n =>
    let i := (n - 8) / 4
    let q := p.at i
    match (n - 8) % 4 with
    | 0 => none
    | 1 => if inRange (-8388608) 8388607 v then some (p.setAt i { q with offset := some v }) else none
    | 2 => if inRange 1 16777215 v then some (p.setAt i { q with gain := some v.toNat }) else none
    | _ => if inRange 58982 72090 v then some (p.setAt i { q with corner := some v.toNat }) else none

/-- The identifiers of the 71 parameters, in the order in which a commit writes them (R165). -/
def paramIds : List Nat := (List.range 71).map (· + 1)

/-- The parameters whose values differ between two sets, with the old and the new value (R164). -/
def ParamSet.diff (old new : ParamSet) : List (Nat × Option Int × Option Int) :=
  paramIds.filterMap fun id => if old.get id == new.get id then none else some (id, old.get id, new.get id)

/-- A site setting's value by its identifier of A.4. -/
def SiteSettings.get (t : SiteSettings) (id : Nat) : Int :=
  match id with
  | 1 => t.waitTimer | 2 => t.sensorSpacing | 3 => t.groupSpacing | 4 => t.speedLimit | 5 => t.gapTimeout
  | 6 => t.limits.single | 7 => t.limits.tandem | 8 => t.limits.triaxle | 9 => t.limits.quad
  | 33 => t.minorBand | 34 => codeOf t.hold | 35 => codeOf t.autoOpen
  | 36 => codeOf (t.defaultDirection == .outturn)
  | 37 => t.tareAge | 38 => t.threshold | 39 => t.listLimit | 40 => codeOf t.mpeInService
  | 41 => t.rateConsole.rate | 42 => t.rateLane.rate | 43 => t.rateInventory.rate | 44 => t.rateService.rate
  | n => ((t.grossLimits[n - 10]?.getD 0 : Nat) : Int)

/-- A two-valued setting coded 1 and 2. -/
def boolOfCode (v : Int) : Option Bool :=
  if v = 1 then some false else if v = 2 then some true else none

/-- A whole number within a range. -/
def natIn (low high : Int) (v : Int) : Option Nat := if inRange low high v then some v.toNat else none

/-- The settings with one of them changed, within the ranges of R183; `none` is RANGE. -/
def SiteSettings.set? (t : SiteSettings) (id : Nat) (v : Int) : Option SiteSettings :=
  match id with
  | 1 => (natIn 0 120 v).map fun n => { t with waitTimer := n }
  | 2 => (natIn 500 2000 v).map fun n => { t with sensorSpacing := n }
  | 3 => (natIn 1000 3000 v).map fun n => { t with groupSpacing := n }
  | 4 => (natIn 3 15 v).map fun n => { t with speedLimit := n }
  | 5 => (natIn 1 10 v).map fun n => { t with gapTimeout := n }
  | 6 => (natIn 0 200000 v).map fun n => { t with limits := { t.limits with single := n } }
  | 7 => (natIn 0 200000 v).map fun n => { t with limits := { t.limits with tandem := n } }
  | 8 => (natIn 0 200000 v).map fun n => { t with limits := { t.limits with triaxle := n } }
  | 9 => (natIn 0 200000 v).map fun n => { t with limits := { t.limits with quad := n } }
  | 33 => (natIn 0 10 v).map fun n => { t with minorBand := n }
  | 34 => (boolOfCode v).map fun b => { t with hold := b }
  | 35 => (boolOfCode v).map fun b => { t with autoOpen := b }
  | 36 => (boolOfCode v).map fun b => { t with defaultDirection := if b then .outturn else .receival }
  | 37 => (natIn 1 365 v).map fun n => { t with tareAge := n }
  | 38 => (natIn 1 8 v).map fun n => { t with threshold := n }
  | 39 => (natIn 0 2 v).map fun n => { t with listLimit := n }
  | 40 => (boolOfCode v).map fun b => { t with mpeInService := b }
  | 41 => (Baud.ofRate v).map fun r => { t with rateConsole := r }
  | 42 => (Baud.ofRate v).map fun r => { t with rateLane := r }
  | 43 => (Baud.ofRate v).map fun r => { t with rateInventory := r }
  | 44 => (Baud.ofRate v).map fun r => { t with rateService := r }
  | n => (natIn 0 200000 v).map fun m => { t with grossLimits := t.grossLimits.setIfInBounds (n - 10) m }

/-- The link whose rate a setting identifier names (A.4). -/
def rateLink : Nat → Option Link
  | 41 => some .console | 42 => some .lane | 43 => some .inventory | 44 => some .service | _ => none

/-- The rate setting of a link. -/
def SiteSettings.rate (t : SiteSettings) : Link → Baud
  | .console => t.rateConsole | .lane => t.rateLane | .inventory => t.rateInventory | .service => t.rateService

/-- The gross limit for an axle count; a pass of 0 or 1 axle has no entry (R73). -/
def SiteSettings.grossLimit (t : SiteSettings) (axles : Nat) : Nat :=
  if 2 ≤ axles then t.grossLimits[axles - 2]?.getD 0 else 0

end Sys2Proof.Machine
end

