-- ==== Sys2Proof/Machine/Groups.lean ====
section
/-! DEFINITION. Axle groups, verdicts and the axle summary (chapter 4): how a closed pass is cut into groups, judged, and
marked INDICATIVE, and how the fields of a summary that its layout does not hold are formed (R203). -/

namespace Sys2Proof.Machine

/-- The type of a group by its axle count (R70). -/
def GroupType.ofCount : Nat → GroupType
  | 1 => .single | 2 => .tandem | 3 => .triaxle | 4 => .quad | _ => .irregular

/-- The limit for a group type; an IRREGULAR group has none (R73). -/
def GroupLimits.of (l : GroupLimits) : GroupType → Nat
  | .single => l.single | .tandem => l.tandem | .triaxle => l.triaxle | .quad => l.quad | .irregular => 0

/-- The verdict of a weight in tenths against a limit in kilograms and a band in percent, compared exactly (R72). -/
def verdictOf (tenths : Int) (limit band : Nat) : Verdict :=
  let excess := tenths - 10 * limit
  if limit = 0 then .unchecked
  else if excess ≤ 0 then .within
  else if 100 * excess ≤ 10 * limit * band then .minor
  else .major

/-- The rank of a verdict, MAJOR highest (R73). -/
def Verdict.rank : Verdict → Nat
  | .unchecked => 0 | .within => 1 | .minor => 2 | .major => 3

/-- The higher of two verdicts. -/
def Verdict.worse (a b : Verdict) : Verdict := if a.rank < b.rank then b else a

/-- The exact sum of axle loads of a summary. -/
def AxleSummary.sum (s : AxleSummary) : Int := sumInt (s.groups.map (·.load))

/-- The axle count of a summary. -/
def AxleSummary.axles (s : AxleSummary) : Nat := (s.groups.map (·.count)).sum

/-- A load rounded to a whole multiple of e at close (R70). -/
def reportedLoad (e : Interval) (load : Int) : Int := roundTo load (10 * e.kg)

/-- The reported sum of the gross check (R73). -/
def AxleSummary.reportedSum (s : AxleSummary) : Int := reportedLoad s.e s.sum

/-- The group reports of a summary from a first axle on. -/
def groupReports (s : AxleSummary) : Nat → List AxleGroup → List GroupReport
  | _, [] => []
  | first, g :: t =>
    let type := GroupType.ofCount g.count
    let limit := s.limits.of type
    let reported := reportedLoad s.e g.load
    ⟨first, g.count, type, g.load, reported, limit, verdictOf reported limit s.band⟩ :: groupReports s (first + g.count) t

/-- Every group record of a summary, front group first (section 4.1). -/
def AxleSummary.reports (s : AxleSummary) : List GroupReport := groupReports s 1 s.groups

/-- The verdict of the gross check; a pass of 0 or 1 axle is UNCHECKED with limit 0 (R67, R73). -/
def AxleSummary.grossVerdict (s : AxleSummary) : Verdict := verdictOf s.reportedSum s.grossLimit s.band

/-- The worst verdict (R73). -/
def AxleSummary.worst (s : AxleSummary) : Verdict :=
  (s.reports.map (·.verdict)).foldl Verdict.worse s.grossVerdict

/-- Whether a summary is INDICATIVE, for any reason (section 4.1). -/
def Indicative.any (i : Indicative) : Bool := i.overspeed || i.cellFault || i.inconsistent || i.generation

/-- The group sizes of an axle list. `current` is the size of the group being formed, 0 for none; `run` is the length of the
run of speedless axles standing before the axles to come (R68, R69). -/
def groupSizes (limit : Nat) : Nat → Nat → List AxleRecord → List Nat
  | current, run, [] => if run > 0 then List.replicate run 1 else if current > 0 then [current] else []
  | current, run, a :: t =>
    match a.speed with
    | none =>
      if run > 0 then groupSizes limit 0 (run + 1) t
      else if current > 0 then current :: groupSizes limit 0 1 t
      else groupSizes limit 0 1 t
    | some _ =>
      let joins := match a.spacing with | some d => decide (d ≤ limit) | none => false
      if run > 0 then
        if joins then groupSizes limit (run + 1) 0 t else List.replicate run 1 ++ groupSizes limit 1 0 t
      else if current = 0 then groupSizes limit 1 0 t
      else if joins then groupSizes limit (current + 1) 0 t
      else current :: groupSizes limit 1 0 t

/-- An axle list cut into groups of given sizes, each with the exact sum of its loads (R70). -/
def cutGroups : List Nat → List AxleRecord → List AxleGroup
  | [], _ => []
  | n :: t, axles => ⟨n, sumInt ((axles.take n).map fun a => a.load.getD 0)⟩ :: cutGroups t (axles.drop n)

/-- The axle summary of a CHECKED pass closed NORMAL, from its axles with their loads, the settings as they stand and the
current generation (R67, R71, R74). -/
def formSummary (p : Pass) (e : Interval) (t : SiteSettings) (generation : Nat) : AxleSummary :=
  { openedAt := p.openedAt, generation := generation, e := e,
    groups := cutGroups (groupSizes t.groupSpacing 0 0 p.axles) p.axles,
    band := t.minorBand, limits := t.limits, grossLimit := t.grossLimit p.axles.length, marks := p.marks,
    indicative := ⟨p.marks.overspeed, p.marks.cellFault, false, false⟩ }

/-- Whether the sum of axle loads differs from the static gross by more than the tolerance of R76. -/
def inconsistent (sum static : Int) (e : Interval) : Bool :=
  let d : Int := (sum - static).natAbs
  decide (100 * d > static) && decide (d > 50 * e.kg)

end Sys2Proof.Machine
end

