-- ==== Sys2Proof/Machine/Codec.lean ====
section
/-! DEFINITION. The code of a store word (section 8.1), the packing of fields into store words (A.1), and the addresses of
slots and copies (R140, R141). -/

namespace Sys2Proof.Machine

/-! ## The SEC-DED code (R135, R136) -/

/-- The data bits in their positions, every check bit and the parity bit 0 (section 8.1's table). -/
def placeData (d : Word) : StoreWord :=
  (d.extractLsb' 26 6 ++ 0#1 ++ d.extractLsb' 11 15 ++ 0#1 ++ d.extractLsb' 4 7 ++ 0#1 ++ d.extractLsb' 1 3 ++ 0#1
    ++ d.extractLsb' 0 1 ++ 0#3 : BitVec 39)

/-- The data bits of a word, taken from their positions. -/
def dataOf (w : StoreWord) : Word :=
  (w.extractLsb' 33 6 ++ w.extractLsb' 17 15 ++ w.extractLsb' 9 7 ++ w.extractLsb' 5 3 ++ w.extractLsb' 3 1 : BitVec 32)

/-- The parity of the positions below `n` that a test selects. -/
def parityOf (sel : Nat → Bool) (w : StoreWord) : Nat → Bool
  | 0 => false
  | n + 1 => ((sel n && w.getLsbD n) ^^ parityOf sel w n)

/-- Bit j of the syndrome: the parity of the positions from 1 to 38 whose number has bit j set (R136). -/
def syndromeBit (w : StoreWord) (j : Nat) : Bool := parityOf (fun p => p.testBit j) w 39

/-- The parity of all 39 bits; true is odd (R136). -/
def overallParity (w : StoreWord) : Bool := parityOf (fun _ => true) w 39

/-- One bit as a word with that bit at a position. -/
def bitAt (b : Bool) (p : Nat) : StoreWord := if b then 1#39 <<< p else 0#39

/-- A word with its check bits set so that every group is even (R135). -/
def withChecks (w : StoreWord) : StoreWord :=
  w ||| bitAt (syndromeBit w 0) 1 ||| bitAt (syndromeBit w 1) 2 ||| bitAt (syndromeBit w 2) 4
    ||| bitAt (syndromeBit w 3) 8 ||| bitAt (syndromeBit w 4) 16 ||| bitAt (syndromeBit w 5) 32

/-- The encoding of 32 data bits (R135). -/
def encodeWord (d : Word) : StoreWord :=
  let w := withChecks (placeData d)
  w ||| bitAt (overallParity w) 0

/-- The syndrome as a number (R136). -/
def syndrome (w : StoreWord) : Nat :=
  (syndromeBit w 0).toNat + 2 * (syndromeBit w 1).toNat + 4 * (syndromeBit w 2).toNat
    + 8 * (syndromeBit w 3).toNat + 16 * (syndromeBit w 4).toNat + 32 * (syndromeBit w 5).toNat

/-- The classes of a word as read (R136). -/
inductive WordClass
  | clean | correctedCheck | corrected | double
  deriving DecidableEq, Repr

/-- A word's class and the data it delivers (R136). A word never written is the encoding of 0. -/
def readClass (w : StoreWord) : WordClass × Option Word :=
  if w = 0#39 then (.clean, some 0#32)
  else
    let s := syndrome w
    match overallParity w with
    | false => if s = 0 then (.clean, some (dataOf w)) else (.double, none)
    | true =>
      if s = 0 then (.correctedCheck, some (dataOf w))
      else if s ≤ 38 then (.corrected, some (dataOf (w ^^^ bitAt true s)))
      else (.double, none)

/-- The poison pattern for a completion word's data: its encoding with the check bits at 16 and 32 inverted (R145). -/
def poisonWord (d : Word) : StoreWord := encodeWord d ^^^ bitAt true 16 ^^^ bitAt true 32

/-! ## Fields of store words (A.1, A.4) -/

/-- Fields of given widths, packed from the top downward, as their width and their number. -/
def packBits : List (Nat × Nat) → Nat × Nat
  | [] => (0, 0)
  | (w, v) :: t =>
    let (w', v') := packBits t
    (w + w', (v % 2 ^ w) * 2 ^ w' + v')

/-- Fields packed from bit 31 of a word downward; unused bits are 0 (A.1, R203). -/
def packWord (fields : List (Nat × Nat)) : Word :=
  let (w, v) := packBits fields
  BitVec.ofNat 32 (v * 2 ^ (32 - w))

/-- The fields of given widths read from the top of an `n`-bit number downward. -/
def unpackBits (n : Nat) (v : Nat) : List Nat → List Nat
  | [] => []
  | w :: t => (v / 2 ^ (n - w) % 2 ^ w) :: unpackBits (n - w) v t

/-- The fields of given widths read from bit 31 of a word downward. -/
def unpackWord (w : Word) (widths : List Nat) : List Nat := unpackBits 32 w.toNat widths

/-- A bit stream as `count` words, its first bit at bit 31 of the first word. -/
def streamWords (fields : List (Nat × Nat)) (count : Nat) : List Word :=
  let (w, v) := packBits fields
  let all := v * 2 ^ (32 * count - w)
  (List.range count).map fun i => BitVec.ofNat 32 (all / 2 ^ (32 * (count - 1 - i)))

/-- Words joined into one number, the first word at the most significant end. -/
def joinWords (ws : List Word) : Nat := ws.foldl (fun n w => n * 2 ^ 32 + w.toNat) 0

/-! ## Regions, slots and addresses (R140) -/

/-- A region's place in the order of R140. -/
def Region.index : Region → Nat
  | .parameters => 0 | .counters => 1 | .visits => 2 | .tares => 3 | .queue => 4 | .weighings => 5 | .tickets => 6
  | .trail => 7

/-- The regions in the order of R140. -/
def allRegions : List Region := [.parameters, .counters, .visits, .tares, .queue, .weighings, .tickets, .trail]

/-- Slots in a region (R140). -/
def Region.slots : Region → Nat
  | .parameters => 1 | .counters => 1 | .visits => 64 | .tares => 256 | .queue => 32 | .weighings => 4096
  | .tickets => 2048 | .trail => 512

/-- Words per record (R140). -/
def Region.words : Region → Nat
  | .parameters => 96 | .counters => 8 | .visits => 40 | .tares => 8 | .queue => 40 | .weighings => 8 | .tickets => 40
  | .trail => 8

/-- Whether a region's slots are paired (R140). -/
def Region.paired : Region → Bool
  | .weighings => false | .tickets => false | .trail => false | _ => true

/-- Copies per slot (R141). -/
def Region.copies (r : Region) : Nat := if r.paired then 2 else 1

/-- The kind code of a region's records (A.4). -/
def Region.kind : Region → Nat
  | .parameters => 7 | .counters => 7 | .visits => 3 | .tares => 4 | .queue => 5 | .weighings => 1 | .tickets => 2
  | .trail => 6

/-- The address of a region's first word (R140's order). -/
def Region.base : Region → Nat
  | .parameters => 0 | .counters => 192 | .visits => 208 | .tares => 5328 | .queue => 9424 | .weighings => 11984
  | .tickets => 44752 | .trail => 126672

/-- The number of a region's first slot in the patrol's order (R150). -/
def Region.firstSlot : Region → Nat
  | .parameters => 0 | .counters => 1 | .visits => 2 | .tares => 66 | .queue => 322 | .weighings => 354 | .tickets => 4450
  | .trail => 6498

/-- Words in the store (R140). -/
def storeWords : Nat := 130768

/-- Slots in the store (R150). -/
def storeSlots : Nat := 7010

/-- A slot's number in the patrol's order. -/
def slotNumber (r : Region) (slot : Nat) : Nat := r.firstSlot + slot

/-- The region and slot of a slot number. -/
def slotOfNumber (n : Nat) : Region × Nat :=
  if n < 1 then (.parameters, n)
  else if n < 2 then (.counters, n - 1)
  else if n < 66 then (.visits, n - 2)
  else if n < 322 then (.tares, n - 66)
  else if n < 354 then (.queue, n - 322)
  else if n < 4450 then (.weighings, n - 354)
  else if n < 6498 then (.tickets, n - 4450)
  else (.trail, n - 6498)

/-- The address of a copy's first word; copy 0 lies before copy 1 (log entry 5). -/
def recordBase (r : Region) (slot copy : Nat) : Nat := r.base + (slot * r.copies + copy) * r.words

/-- The region of an address. -/
def regionOfAddress (a : Nat) : Region :=
  if a < 192 then .parameters
  else if a < 208 then .counters
  else if a < 5328 then .visits
  else if a < 9424 then .tares
  else if a < 11984 then .queue
  else if a < 44752 then .weighings
  else if a < 126672 then .tickets
  else .trail

/-- The slot number of an address. -/
def slotOfAddress (a : Nat) : Nat :=
  let r := regionOfAddress a
  slotNumber r ((a - r.base) / (r.words * r.copies))

/-- Which copy of its slot an address lies in. -/
def copyOfAddress (a : Nat) : Nat :=
  let r := regionOfAddress a
  (a - r.base) / r.words % r.copies

/-- The first and last word of a record: kind, copy count and key (A.4). -/
def headerWord (kind count key : Nat) : Word := packWord [(3, kind), (2, count), (27, key)]

/-- A header word's kind, copy count and key. -/
def headerFields (w : Word) : Nat × Nat × Nat :=
  (w.toNat / 2 ^ 29, w.toNat / 2 ^ 27 % 4, w.toNat % 2 ^ 27)

/-- Whether a key belongs to a slot of a region (R139). -/
def keyBelongs (r : Region) (slot key : Nat) : Bool :=
  match r with
  | .parameters => key == 2
  | .counters => key == 1
  | .visits => decide (1 ≤ key) && decide (key ≤ 65535)
  | .tares | .queue => decide (1 ≤ key) && decide (key ≤ 99999999)
  | .weighings => decide (1 ≤ key) && decide (key ≤ 99999999) && (key - 1) % 4096 == slot
  | .tickets => decide (1 ≤ key) && decide (key ≤ 99999999) && (key - 1) % 2048 == slot
  | .trail => decide (1 ≤ key) && decide (key ≤ 134217727) && (key - 1) % 512 == slot

/-- The words of a record write as data with their addresses, in the order they are written: the first word, those between,
and the completion word last; a FREE record is its first word and its completion word (R139, R144). -/
def recordData (spec : RecordSpec) (copy count : Nat) : List (Nat × Word) :=
  let base := recordBase spec.region spec.slot copy
  let header := headerWord spec.kind count spec.key
  if spec.kind = 0 then [(base, header), (base + spec.region.words - 1, header)]
  else (List.range spec.region.words).map fun i =>
    (base + i, if i = 0 ∨ i + 1 = spec.region.words then header else spec.body[i - 1]?.getD 0#32)

/-- A record write as encoded words (R135). -/
def recordWords (spec : RecordSpec) (copy count : Nat) : List (Nat × StoreWord) :=
  (recordData spec copy count).map fun p => (p.1, encodeWord p.2)

/-- A removal: a FREE record of key 0 (R139). -/
def removal (r : Region) (slot : Nat) : RecordSpec := ⟨r, slot, 0, 0, []⟩

end Sys2Proof.Machine
end

