-- ==== Sys2Proof/Machine/Records.lean ====
section
/-! DEFINITION. The store records of appendix A.4: each record's words between the first and the last, written from the
layout tables, and read back; a reading of `none` is a value the layout does not allow (R203). -/

namespace Sys2Proof.Machine

/-! ## Enumerations in store words (A.1) -/

/-- The code of e: 0 to 4. -/
def Interval.code : Interval → Nat
  | .e5 => 0 | .e10 => 1 | .e20 => 2 | .e50 => 3 | .e100 => 4

/-- The e of a code. -/
def Interval.ofCode : Nat → Option Interval
  | 0 => some .e5 | 1 => some .e10 | 2 => some .e20 | 3 => some .e50 | 4 => some .e100 | _ => none

/-- The code of the verification status. -/
def VerStatus.code : VerStatus → Nat
  | .pending => 0 | .verified => 1 | .failed => 2 | .integrity => 3

/-- The verification status of a two-bit code. -/
def VerStatus.ofCode : Nat → VerStatus
  | 0 => .pending | 1 => .verified | 2 => .failed | _ => .integrity

/-- The code of a direction. -/
def Direction.code : Direction → Nat
  | .receival => 0 | .outturn => 1

/-- The direction of a one-bit code. -/
def Direction.ofCode (n : Nat) : Direction := if n = 0 then .receival else .outturn

/-- The code of a filter window. -/
def FilterWindow.code : FilterWindow → Nat
  | .w4 => 0 | .w8 => 1 | .w16 => 2 | .w32 => 3

/-- The filter window of a two-bit code. -/
def FilterWindow.ofCode : Nat → FilterWindow
  | 0 => .w4 | 1 => .w8 | 2 => .w16 | _ => .w32

/-- The code of a rate. -/
def Baud.code : Baud → Nat
  | .b9600 => 0 | .b19200 => 1 | .b38400 => 2 | .b57600 => 3 | .b115200 => 4

/-- The rate of a code. -/
def Baud.ofCode : Nat → Option Baud
  | 0 => some .b9600 | 1 => some .b19200 | 2 => some .b38400 | 3 => some .b57600 | 4 => some .b115200 | _ => none

/-- The code of a weighing record's purpose (R108). -/
def RecordPurpose.code : RecordPurpose → Nat
  | .first => 0 | .second => 1 | .onePass => 2 | .tare => 3 | .unattached => 4

/-- The purpose of a code. -/
def RecordPurpose.ofCode : Nat → Option RecordPurpose
  | 0 => some .first | 1 => some .second | 2 => some .onePass | 3 => some .tare | 4 => some .unattached | _ => none

/-- The code of a visit state; 3 is no state (R203). -/
def VisitState.code : VisitState → Nat
  | .awaitingFirst => 0 | .opened => 1 | .held => 2

/-- The visit state of a code. -/
def VisitState.ofCode : Nat → Option VisitState
  | 0 => some .awaitingFirst | 1 => some .opened | 2 => some .held | _ => none

/-- The code of an integrity reason. -/
def IntegrityReason.code : IntegrityReason → Nat
  | .damagedRecord => 0 | .lostRecord => 1 | .commitCut => 2

/-- The integrity reason of a code. -/
def IntegrityReason.ofCode : Nat → Option IntegrityReason
  | 0 => some .damagedRecord | 1 => some .lostRecord | 2 => some .commitCut | _ => none

/-- The code of a read source. -/
def ReadSource.code : ReadSource → Nat
  | .scan => 0 | .patrol => 1 | .read => 2

/-- The read source of a code. -/
def ReadSource.ofCode : Nat → Option ReadSource
  | 0 => some .scan | 1 => some .patrol | 2 => some .read | _ => none

/-- A one-bit field. -/
def bit (b : Bool) : Nat := if b then 1 else 0

/-- A one-bit field read. -/
def isOne (n : Nat) : Bool := n == 1

/-- A number field that is 0 where the number is absent (A.1). -/
def optNumber (o : Option Nat) : Nat := o.getD 0

/-- A number field read; 0 is absent. -/
def numberOpt (n : Nat) : Option Nat := if n = 0 then none else some n

/-- A word that holds a number. -/
def numberWord (n : Nat) : Word := BitVec.ofNat 32 n

/-- A word that holds a signed number. -/
def intWord (v : Int) : Word := BitVec.ofInt 32 v

/-- The word at a place of a record's words between the first and the last, numbered as A.4 numbers them. -/
def wordAt (body : List Word) (n : Nat) : Word := body[n - 1]?.getD 0#32

/-- A weight in a plain 24-bit field: the first weight of a visit, the gross and the tare of a ticket, the weight of a tare entry. Each
is a captured weight of at least Min (R36, R38) and so never below 0; only the weighing record's field is signed (A.4). -/
def plainWeight (w : Int) : Nat := w.toNat

/-- Checks that every one of a list of conditions holds before giving a reading. -/
def allow {α : Type} (ok : Bool) (v : α) : Option α := if ok then some v else none

/-- A time is a count of the clock, 0 to 4,294,967,294 (R197). -/
def timeOk (w : Word) : Bool := decide (w.toNat ≤ 4294967294)

/-- A weighing or ticket number lies in 1 to 99,999,999 (section 4.4). -/
def recordNumberOk (n : Nat) : Bool := decide (1 ≤ n) && decide (n ≤ 99999999)

/-! ## Identities (A.1) -/

/-- A stored identity: sixteen six-bit codes in three words, character 1 at the most significant end. -/
def identityWords (id : Identity) : List Word :=
  streamWords ((List.range 16).map fun i => (6, id[i]?.getD 0)) 3

/-- An identity read from its three words; an empty one, a code above 37 and a character after a 0 are not allowed. -/
def identityOfWords (ws : List Word) : Option Identity :=
  let codes := unpackBits 96 (joinWords ws) (List.replicate 16 6)
  let id := codes.takeWhile fun c => c != 0
  allow (!id.isEmpty && id.all (fun c => decide (c ≤ 37)) && (codes.drop id.length).all (fun c => c == 0)) id

/-! ## The summary area (A.4) -/

/-- The marks of a pass as six bits, in the order of R64. -/
def marksFields (m : PassMarks) : List (Nat × Nat) :=
  [(1, bit m.followOn), (1, bit m.reversed), (1, bit m.sensorFault), (1, bit m.cellFault), (1, bit m.overspeed),
    (1, bit m.calMode)]

/-- A group load as written: beyond ±4,194,303 tenths it is the nearer bound (R203). -/
def groupLoadField (load : Int) : Nat := twos 23 (clampTo 4194303 load)

/-- The 176 bits of the summary area's header, for an axle count. -/
def summaryHeader (s : AxleSummary) (axles : Nat) : List (Nat × Nat) :=
  [(48, s.openedAt), (16, s.generation), (3, s.e.code), (5, axles), (4, s.band), (18, s.limits.single),
    (18, s.limits.tandem), (18, s.limits.triaxle), (18, s.limits.quad), (18, s.grossLimit)]
  ++ marksFields s.marks
  ++ [(1, bit s.indicative.overspeed), (1, bit s.indicative.cellFault), (1, bit s.indicative.inconsistent),
    (1, bit s.indicative.generation)]

/-- The fields of the summary area, in order. -/
def summaryFields (s : AxleSummary) : List (Nat × Nat) :=
  summaryHeader s ((s.groups.map (·.count)).foldl (· + ·) 0)
    ++ (s.groups.map fun g => [(5, g.count), (23, groupLoadField g.load)]).flatten

/-- The summary area as words; absent is all zero. -/
def summaryWords (s : Option AxleSummary) (count : Nat) : List Word :=
  match s with
  | some s => streamWords (summaryFields s) count
  | none => List.replicate count 0#32

/-- The groups of a summary area: 28 bits each, until their counts sum to the axle count; a load below −4,194,303 tenths is one
no write leaves (R203). -/
def groupsOf : Nat → Nat → Nat → Nat → Option (List AxleGroup)
  | 0, left, _, _ => if left = 0 then some [] else none
  | fuel + 1, left, bits, v =>
    if left = 0 then some []
    else
      match unpackBits bits v [5, 23] with
      | [c, l] =>
        if c = 0 ∨ left < c ∨ signed 23 l < -4194303 then none
        else (groupsOf fuel (left - c) (bits - 28) v).map fun t => ⟨c, signed 23 l⟩ :: t
      | _ => none

/-- A summary read from its area: up to 24 axles, a band of up to 10 percent and limits of up to 200,000 kg (R183, R203). -/
def summaryOfWords (ws : List Word) : Option AxleSummary :=
  let n := 32 * ws.length
  let v := joinWords ws
  match unpackBits n v [48, 16, 3, 5, 4, 18, 18, 18, 18, 18, 1, 1, 1, 1, 1, 1, 1, 1, 1, 1] with
  | [opened, gen, e, axles, band, l1, l2, l3, l4, lg, fo, rv, sf, cf, os, cm, io, ic, ii, ig] =>
    match Interval.ofCode e, groupsOf 24 axles (n - 176) v with
    | some e, some groups =>
      allow (decide (axles ≤ 24) && decide (band ≤ 10) && [l1, l2, l3, l4, lg].all fun l => decide (l ≤ 200000)) {
             openedAt := opened, generation := gen, e := e, groups := groups, band := band,
             limits := ⟨l1, l2, l3, l4⟩, grossLimit := lg,
             marks := ⟨isOne fo, isOne rv, isOne sf, isOne cf, isOne os, isOne cm⟩,
             indicative := ⟨isOne io, isOne ic, isOne ii, isOne ig⟩ }
    | _, _ => none
  | _ => none

/-- A summary area read where its present bit is set; the outer `none` is a value not allowed. Where the bit is clear the area is not
judged (DESIGN CHOICE, log entry 82). -/
def optSummaryOfWords (present : Bool) (ws : List Word) : Option (Option AxleSummary) :=
  if present then (summaryOfWords ws).map some else some none

/-! ## Weighing and tare records -/

/-- A weighing record's words (A.4). -/
def weighingWords (w : WeighingRecord) : List Word :=
  identityWords w.identity ++
  [numberWord w.time,
   packWord [(24, twos 24 w.weight), (3, w.e.code), (2, w.status.code), (3, w.purpose.code)],
   packWord [(16, w.generation), (16, optNumber w.visit)]]

/-- A weighing record read; its number is its key. Each field is judged alone: a purpose and a visit number that do not go together
are restored as they stand (DESIGN CHOICE, log entry 74). -/
def weighingOfWords (key : Nat) (b : List Word) : Option WeighingRecord :=
  match unpackWord (wordAt b 5) [24, 3, 2, 3], unpackWord (wordAt b 6) [16, 16] with
  | [w, e, st, p], [gen, visit] =>
    match identityOfWords [wordAt b 1, wordAt b 2, wordAt b 3], Interval.ofCode e, RecordPurpose.ofCode p with
    | some id, some e, some p =>
      allow (timeOk (wordAt b 4)) {
             number := key, identity := id, time := (wordAt b 4).toNat, weight := signed 24 w, e := e,
             status := VerStatus.ofCode st, purpose := p, generation := gen, visit := numberOpt visit }
    | _, _, _ => none
  | _, _ => none

/-- The record write of a weighing record: slot (n − 1) modulo 4,096 (R110). -/
def weighingSpec (w : WeighingRecord) : RecordSpec :=
  ⟨.weighings, (w.number - 1) % 4096, 1, w.number, weighingWords w⟩

/-- A tare entry's words (A.4). -/
def tareWords (t : TareEntry) : List Word :=
  identityWords t.identity ++
  [numberWord t.time, packWord [(24, plainWeight t.weight), (3, t.e.code), (2, t.status.code)], packWord [(16, t.generation)]]

/-- A tare entry read; its tare weighing number is its key (R139). -/
def tareOfWords (slot key : Nat) (b : List Word) : Option TareEntry :=
  match unpackWord (wordAt b 5) [24, 3, 2], unpackWord (wordAt b 6) [16] with
  | [w, e, st], [gen] =>
    match identityOfWords [wordAt b 1, wordAt b 2, wordAt b 3], Interval.ofCode e with
    | some id, some e =>
      allow (timeOk (wordAt b 4)) {
             identity := id, weight := w, time := (wordAt b 4).toNat, e := e, generation := gen,
             status := VerStatus.ofCode st, weighing := key, slot := slot }
    | _, _ => none
  | _, _ => none

/-- The record write of a tare entry. -/
def tareSpec (t : TareEntry) : RecordSpec := ⟨.tares, t.slot, 4, t.weighing, tareWords t⟩

/-! ## Counters and parameter blocks -/

/-- The counters block: generation, status and status sequence (R178). -/
def countersSpec (generation : Nat) (status : VerStatus) (statusSeq : Nat) : RecordSpec :=
  ⟨.counters, 0, 7, 1, [packWord [(16, generation), (2, status.code)], packWord [(27, statusSeq)]]⟩

/-- The counters block read: generation, status and status sequence. -/
def countersOfWords (b : List Word) : Option (Nat × VerStatus × Nat) :=
  match unpackWord (wordAt b 1) [16, 2], unpackWord (wordAt b 2) [27] with
  | [gen, st], [seq] => some (gen, VerStatus.ofCode st, seq)
  | _, _ => none

/-- The three words of one position. -/
def posWords (p : PosParam) : List Word :=
  [packWord [(5, p.map.getD 31), (1, bit p.corner.isNone), (17, p.corner.getD 0)],
   packWord [(1, bit p.offset.isNone), (24, twos 24 (p.offset.getD 0))],
   packWord [(1, bit p.gain.isNone), (24, p.gain.getD 0)]]

/-- The three words of one position read. The value beside a set unset bit is not judged (DESIGN CHOICE, log entry 82). -/
def posOfWords (a b c : Word) : Option PosParam :=
  match unpackWord a [5, 1, 17], unpackWord b [1, 24], unpackWord c [1, 24] with
  | [m, cu, k], [ou, o], [gu, g] =>
    allow ((decide (m ≤ 17) || m == 31) && (isOne cu || (decide (58982 ≤ k) && decide (k ≤ 72090)))
        && (isOne gu || decide (1 ≤ g)))
      { map := if m = 31 then none else some m, offset := if isOne ou then none else some (signed 24 o),
        gain := if isOne gu then none else some g, corner := if isOne cu then none else some k }
  | _, _, _ => none

/-- The parameter block's words: the current set, its generation and the site settings (A.4). -/
def paramWords (p : ParamSet) (generation : Nat) (t : SiteSettings) : List Word :=
  [packWord [(18, p.max), (3, p.e.code), (2, p.decks - 1), (1, bit p.fourCells), (2, p.window.code), (1, bit p.tracking)],
   packWord [(8, p.stability), (16, generation)]]
  ++ (p.pos.toList.map posWords).flatten
  ++ [packWord [(7, t.waitTimer), (11, t.sensorSpacing), (4, t.speedLimit), (4, t.gapTimeout)],
      packWord [(12, t.groupSpacing), (4, t.minorBand), (1, bit t.hold), (1, bit t.autoOpen),
        (1, t.defaultDirection.code), (9, t.tareAge), (4, t.threshold)],
      packWord [(2, t.listLimit), (1, bit t.mpeInService), (3, t.rateConsole.code), (3, t.rateLane.code),
        (3, t.rateInventory.code), (3, t.rateService.code)]]
  ++ ([t.limits.single, t.limits.tandem, t.limits.triaxle, t.limits.quad] ++ t.grossLimits.toList).map
      (fun n => packWord [(18, n)])

/-- The record write of the parameter block. -/
def paramSpec (p : ParamSet) (generation : Nat) (t : SiteSettings) : RecordSpec :=
  ⟨.parameters, 0, 7, 2, paramWords p generation t⟩

/-- The 18-bit number at the top of a word. -/
def limitOf (b : List Word) (n : Nat) : Nat := (wordAt b n).toNat / 2 ^ 14

/-- The positions of the parameter block, each `none` where its words are not allowed. -/
def positionsOf (b : List Word) : Vector (Option PosParam) 16 :=
  Vector.ofFn fun i => posOfWords (wordAt b (3 + 3 * i.val)) (wordAt b (4 + 3 * i.val)) (wordAt b (5 + 3 * i.val))

/-- The site settings read from the parameter block (A.4, R183's ranges). -/
def siteOfWords (b : List Word) : Option SiteSettings :=
  match unpackWord (wordAt b 51) [7, 11, 4, 4], unpackWord (wordAt b 52) [12, 4, 1, 1, 1, 9, 4],
      unpackWord (wordAt b 53) [2, 1, 3, 3, 3, 3] with
  | [wt, sp, sl, gt], [gs, mb, ho, ao, dd, ta, th], [ll, mp, r1, r2, r3, r4] =>
    match Baud.ofCode r1, Baud.ofCode r2, Baud.ofCode r3, Baud.ofCode r4 with
    | some r1, some r2, some r3, some r4 =>
      let gross := Vector.ofFn fun (i : Fin 23) => limitOf b (58 + i.val)
      let lims := [limitOf b 54, limitOf b 55, limitOf b 56, limitOf b 57] ++ gross.toList
      allow (decide (wt ≤ 120) && decide (500 ≤ sp) && decide (sp ≤ 2000) && decide (3 ≤ sl) && decide (1 ≤ gt)
          && decide (gt ≤ 10) && decide (1000 ≤ gs) && decide (gs ≤ 3000) && decide (mb ≤ 10) && decide (1 ≤ ta)
          && decide (ta ≤ 365) && decide (1 ≤ th) && decide (th ≤ 8) && decide (ll ≤ 2)
          && lims.all (fun n => decide (n ≤ 200000)))
        { waitTimer := wt, sensorSpacing := sp, groupSpacing := gs, speedLimit := sl, gapTimeout := gt,
          limits := ⟨limitOf b 54, limitOf b 55, limitOf b 56, limitOf b 57⟩, grossLimits := gross, minorBand := mb,
          hold := isOne ho, autoOpen := isOne ao, defaultDirection := Direction.ofCode dd, tareAge := ta,
          threshold := th, listLimit := ll, mpeInService := isOne mp, rateConsole := r1, rateLane := r2,
          rateInventory := r3, rateService := r4 }
    | _, _, _, _ => none
  | _, _, _ => none

/-- The parameter block read: the set, its generation and the site settings. Each field is judged alone: a Max that does not suit e
and one port in two positions are restored as they stand (DESIGN CHOICE, log entry 74). -/
def paramOfWords (b : List Word) : Option (ParamSet × Nat × SiteSettings) :=
  match unpackWord (wordAt b 1) [18, 3, 2, 1, 2, 1], unpackWord (wordAt b 2) [8, 16] with
  | [mx, e, dk, fc, fw, tr], [st, gen] =>
    let pos := positionsOf b
    match Interval.ofCode e, siteOfWords b with
    | some e, some t =>
      allow (decide (1 ≤ mx) && decide (mx ≤ 200000) && decide (50 ≤ st) && decide (st ≤ 200)
          && pos.toList.all Option.isSome)
        ({ max := mx, e := e, decks := dk + 1, fourCells := isOne fc, window := FilterWindow.ofCode fw, stability := st,
           tracking := isOne tr, pos := Vector.ofFn fun i => (pos[i.val]).getD PosParam.blank }, gen, t)
    | _, _ => none
  | _, _ => none

/-! ## Visit records -/

/-- A visit record's words, with its closing ticket number (R119) or none. -/
def visitWords (v : Visit) (closing : Option Nat) : List Word :=
  let f := v.first.getD ⟨0, 0, 0, .e5, 0, .pending⟩
  [packWord [(10, optNumber v.commodity), (1, v.direction.code), (1, bit v.onePass), (1, bit v.loadedFirst),
     (1, bit v.first.isSome), (1, bit v.summary.isSome), (16, f.generation)]]
  ++ identityWords v.identity
  ++ [packWord [(27, f.number), (2, v.state.code), (1, bit (v.openedBy == .auto)), (1, bit v.heldReleased),
        (1, bit v.overloadReturn)],
      packWord [(24, plainWeight f.weight), (3, f.e.code), (2, f.status.code)],
      numberWord f.time,
      packWord [(27, optNumber closing)]]
  ++ summaryWords v.summary 30

/-- The record write of a visit. -/
def visitSpec (v : Visit) (closing : Option Nat) : RecordSpec := ⟨.visits, v.slot, 3, v.number, visitWords v closing⟩

/-- A visit record read, with its closing number. Of an absent first weighing the e code is judged, its number and its time are not
(DESIGN CHOICE, log entry 75). -/
def visitOfWords (slot key : Nat) (b : List Word) : Option (Visit × Option Nat) :=
  match unpackWord (wordAt b 1) [10, 1, 1, 1, 1, 1, 16], unpackWord (wordAt b 5) [27, 2, 1, 1, 1],
      unpackWord (wordAt b 6) [24, 3, 2], unpackWord (wordAt b 8) [27] with
  | [com, dir, op, lf, fp, sp, gen], [num, st, ob, hr, ovr], [w, e, vs], [closing] =>
    match identityOfWords [wordAt b 2, wordAt b 3, wordAt b 4], VisitState.ofCode st, Interval.ofCode e,
        optSummaryOfWords (isOne sp) ((b.drop 8).take 30) with
    | some id, some st, some e, some sum =>
      allow (decide (com ≤ 999) && (!isOne fp || (recordNumberOk num && timeOk (wordAt b 7))) && decide (closing ≤ 99999999))
        ({ number := key, identity := id, direction := Direction.ofCode dir, commodity := numberOpt com,
           onePass := isOne op, loadedFirst := isOne lf, state := st, openedBy := if isOne ob then .auto else .console,
           first := if isOne fp then some ⟨num, w, (wordAt b 7).toNat, e, gen, VerStatus.ofCode vs⟩ else none,
           summary := sum, heldReleased := isOne hr, overloadReturn := isOne ovr, slot := slot }, numberOpt closing)
    | _, _, _, _ => none
  | _, _, _, _ => none

/-! ## Ticket and queue records -/

/-- A ticket record's words; `damaged` is the queue DAMAGED mark (A.4). -/
def ticketWords (t : Ticket) (damaged : Bool) : List Word :=
  [packWord [(16, t.visit), (10, t.commodity), (1, t.direction.code), (1, bit (!t.forTrade)), (1, bit t.reasons.mixedCal),
     (1, bit t.reasons.pendingVerify), (1, bit t.reasons.failedVerify), (1, bit t.reasons.integrity)]]
  ++ identityWords t.identity
  ++ [packWord [(24, plainWeight t.gross), (3, t.grossE.code), (2, t.grossStatus.code), (1, bit t.tareStored),
        (1, bit t.summary.isSome), (1, bit t.formedByTare)],
      packWord [(24, plainWeight t.tare), (3, t.tareE.code), (2, t.tareStatus.code), (1, bit t.heldReleased),
        (1, bit t.autoOpened), (1, bit t.overloadReturn)],
      packWord [(27, t.grossNumber), (1, bit damaged)],
      packWord [(27, t.tareNumber)],
      numberWord t.grossTime, numberWord t.tareTime,
      packWord [(16, t.grossGeneration), (16, t.tareGeneration)]]
  ++ summaryWords t.summary 27

/-- The record write of a ticket: archive slot (t − 1) modulo 2,048 (R116). -/
def ticketSpec (t : Ticket) : RecordSpec := ⟨.tickets, (t.number - 1) % 2048, 2, t.number, ticketWords t false⟩

/-- The words of a QUEUE record with the DAMAGED mark and no ticket fields (R151). -/
def damagedQueueWords : List Word := List.replicate 6 0#32 ++ [packWord [(27, 0), (1, 1)]]

/-- The record write of a queue entry: its ticket, or the DAMAGED mark. -/
def queueSpec (slot number : Nat) (t : Option Ticket) : RecordSpec :=
  ⟨.queue, slot, 5, number, match t with | some t => ticketWords t false | none => damagedQueueWords⟩

/-- Whether a queue record carries the DAMAGED mark. -/
def queueDamagedMark (b : List Word) : Bool :=
  match unpackWord (wordAt b 7) [27, 1] with | [_, d] => isOne d | _ => false

/-- A ticket record read; its number is its key. The queue DAMAGED mark of word 7 is not judged here: an archive record with the bit set
reads as it would without (DESIGN CHOICE, log entry 83). -/
def ticketOfWords (key : Nat) (b : List Word) : Option Ticket :=
  match unpackWord (wordAt b 1) [16, 10, 1, 1, 1, 1, 1, 1], unpackWord (wordAt b 5) [24, 3, 2, 1, 1, 1],
      unpackWord (wordAt b 6) [24, 3, 2, 1, 1, 1], unpackWord (wordAt b 7) [27], unpackWord (wordAt b 8) [27],
      unpackWord (wordAt b 11) [16, 16] with
  | [visit, com, dir, nt, mc, pv, fv, ig], [g, ge, gs, ts, sp, fbt], [ta, te, tst, hr, ao, ovr], [gn], [tn], [gg, tg] =>
    match identityOfWords [wordAt b 2, wordAt b 3, wordAt b 4], Interval.ofCode ge, Interval.ofCode te,
        optSummaryOfWords (isOne sp) ((b.drop 11).take 27) with
    | some id, some ge, some te, some sum =>
      allow (decide (1 ≤ visit) && decide (1 ≤ com) && decide (com ≤ 999) && recordNumberOk gn && recordNumberOk tn
          && timeOk (wordAt b 9) && timeOk (wordAt b 10))
        { number := key, visit := visit, identity := id, direction := Direction.ofCode dir, commodity := com,
          gross := g, grossE := ge, grossStatus := VerStatus.ofCode gs, grossGeneration := gg,
          grossNumber := gn, grossTime := (wordAt b 9).toNat, tare := ta, tareE := te,
          tareStatus := VerStatus.ofCode tst, tareGeneration := tg, tareStored := isOne ts, tareNumber := tn,
          tareTime := (wordAt b 10).toNat, formedByTare := isOne fbt, forTrade := !isOne nt,
          reasons := ⟨isOne mc, isOne pv, isOne fv, isOne ig⟩, heldReleased := isOne hr, autoOpened := isOne ao,
          overloadReturn := isOne ovr, summary := sum }
    | _, _, _, _ => none
  | _, _, _, _, _, _ => none

/-- The net of a ticket: its gross less its tare (R113, R203). -/
def Ticket.net (t : Ticket) : Int := t.gross - t.tare

/-- The formed-at time of a ticket: the time of the capture that formed it (R203). -/
def Ticket.formedAt (t : Ticket) : Nat := if t.formedByTare then t.tareTime else t.grossTime

/-! ## Trail records -/

/-- The code of a trail record's kind. -/
def TrailBody.kind : TrailBody → Nat
  | .calCommit .. => 0 | .param .. => 1 | .auditResult .. => 2 | .siteChange .. => 3 | .timeSet .. => 4
  | .integrityEvent .. => 5 | .archive .. => 6

/-- Whether a value, as CAL SET and MAP SET carry it, is one its parameter can have (section 9.1); ABSENT is a map value of −1. -/
def paramAllows (id : Nat) (v : Int) : Bool :=
  decide (1 ≤ id) && decide (id ≤ 71)
    && (if 8 ≤ id ∧ (id - 8) % 4 = 0 then inRange (-1) 17 v else (ParamSet.blank.set? id v).isSome)

/-- Whether a value, as SITE SET carries it, is one its setting can have (R183). -/
def settingAllows (id : Nat) (v : Int) : Bool :=
  decide (1 ≤ id) && decide (id ≤ 44) && (SiteSettings.defaults.set? id v).isSome

/-- The settings that are enumerations of two values: the policies, the default direction and the audit MPE mode (R183). -/
def isPolicy (id : Nat) : Bool := id == 34 || id == 35 || id == 36 || id == 40

/-- A parameter's value as a store word holds it: e and the zero-tracking setting by their codes from 0 (A.1), every other value as
it is (log entry 57). -/
def paramToStore (id : Nat) (v : Int) : Int :=
  if id = 2 then (match Interval.ofKg v with | some e => (e.code : Int) | none => 0)
  else if id = 7 then v - 1
  else v

/-- A parameter's value read from a store word; `none` is a value the layout does not allow. -/
def paramOfStore (id : Nat) (w : Int) : Option Int :=
  let v :=
    if id = 2 then (if 0 ≤ w then (Interval.ofCode w.toNat).map fun e => (e.kg : Int) else none)
    else if id = 7 then some (w + 1)
    else some w
  v.filter (paramAllows id)

/-- A setting's value as a store word holds it: the two-valued enumerations by their codes from 0 (A.1), every other value as it is
(log entry 57). -/
def settingToStore (id : Nat) (v : Int) : Int := if isPolicy id then v - 1 else v

/-- A setting's value read from a store word; `none` is a value the layout does not allow. -/
def settingOfStore (id : Nat) (w : Int) : Option Int :=
  (some (if isPolicy id then w + 1 else w)).filter (settingAllows id)

/-- Whether a parameter may be unset: the offset, the gain and the corner factor of a position (section 9.1). -/
def mayBeUnset (id : Nat) : Bool := decide (8 ≤ id) && decide (id ≤ 71) && (id - 8) % 4 != 0

/-- A parameter value that may be unset, read from its bit and its word; the outer `none` is a value not allowed. The word beside a set
unset bit is not judged (DESIGN CHOICE, log entry 82). -/
def optParamOfStore (id : Nat) (unset : Bool) (w : Int) : Option (Option Int) :=
  if unset then allow (mayBeUnset id) none else (paramOfStore id w).map some

/-- The body words of a trail record (A.4's words 3 to 6). -/
def trailBodyWords : TrailBody → List Word
  | .calCommit om oe st nm ne n g =>
    [packWord [(18, om), (3, oe.code), (2, st.code)], packWord [(18, nm), (3, ne.code), (7, n)], packWord [(16, g)]]
  | .param id old new =>
    let word := fun (v : Option Int) => intWord (match v with | some v => paramToStore id v | none => 0)
    [packWord [(16, id), (1, bit old.isNone), (1, bit new.isNone)], word old, word new]
  | .auditResult pass nc pf sv n e worst begun g =>
    [packWord [(1, bit (!pass)), (1, bit nc), (1, bit pf), (1, bit sv), (5, n), (3, e.code), (16, worst.toNat)],
     numberWord begun, packWord [(16, g)]]
  | .siteChange id old new =>
    [packWord [(16, id)], intWord (settingToStore id old), intWord (settingToStore id new)]
  | .timeSet old new => [packWord [(1, bit old.isSome)], numberWord (old.getD 0), numberWord new]
  | .integrityEvent r s q => [packWord [(2, r.code), (2, s.code)], packWord [(27, q)]]
  | .archive b n u => [packWord [(27, b)], numberWord n, numberWord u]

/-- The record write of a trail record: slot (s − 1) modulo 512 (R140). -/
def trailSpec (r : TrailRecord) : RecordSpec :=
  ⟨.trail, (r.sequence - 1) % 512, 6, r.sequence,
    [numberWord (r.time.getD 0), packWord [(3, r.body.kind), (1, bit r.time.isSome), (16, r.generation)]]
      ++ trailBodyWords r.body⟩

/-- A count of an ARCHIVE record: it archives at least one record, its own is unarchived after it, and at most 511 records are
unarchived at any time (R180, R182). -/
def archiveCountOk (w : Word) : Bool := decide (1 ≤ w.toNat) && decide (w.toNat ≤ 511)

/-- The body of a trail record read. The old time of a TIME_SET that says it is absent is not judged (DESIGN CHOICE, log entry 82). -/
def trailBodyOfWords (kind : Nat) (b : List Word) : Option TrailBody :=
  let w3 := wordAt b 3
  let w4 := wordAt b 4
  let w5 := wordAt b 5
  match kind with
  | 0 =>
    match unpackWord w3 [18, 3, 2], unpackWord w4 [18, 3, 7], unpackWord w5 [16] with
    | [om, oe, st], [nm, ne, n], [g] =>
      match Interval.ofCode oe, Interval.ofCode ne with
      | some oe, some ne =>
        allow (decide (1 ≤ om) && decide (om ≤ 200000) && decide (1 ≤ nm) && decide (nm ≤ 200000) && decide (1 ≤ n)
            && decide (n ≤ 71))
          (.calCommit om oe (VerStatus.ofCode st) nm ne n g)
      | _, _ => none
    | _, _, _ => none
  | 1 =>
    match unpackWord w3 [16, 1, 1] with
    | [id, ou, nu] =>
      match optParamOfStore id (isOne ou) w4.toInt, optParamOfStore id (isOne nu) w5.toInt with
      | some old, some new => allow (decide (1 ≤ id) && decide (id ≤ 71)) (.param id old new)
      | _, _ => none
    | _ => none
  | 2 =>
    match unpackWord w3 [1, 1, 1, 1, 5, 3, 16], unpackWord w5 [16] with
    | [v, nc, pf, sv, n, e, worst], [g] =>
      (Interval.ofCode e).bind fun e => allow (decide (n ≤ 24) && timeOk w4) <|
        .auditResult (!isOne v) (isOne nc) (isOne pf) (isOne sv) n e (BitVec.ofNat 16 worst) w4.toNat g
    | _, _ => none
  | 3 =>
    match unpackWord w3 [16] with
    | [id] =>
      match settingOfStore id w4.toInt, settingOfStore id w5.toInt with
      | some old, some new => some (.siteChange id old new)
      | _, _ => none
    | _ => none
  | 4 =>
    match unpackWord w3 [1] with
    | [p] => allow ((!isOne p || timeOk w4) && timeOk w5) (.timeSet (if isOne p then some w4.toNat else none) w5.toNat)
    | _ => none
  | 5 =>
    match unpackWord w3 [2, 2], unpackWord w4 [27] with
    | [r, s], [q] =>
      match IntegrityReason.ofCode r, ReadSource.ofCode s with
      | some r, some s => allow (decide (1 ≤ q)) (.integrityEvent r s q)
      | _, _ => none
    | _, _ => none
  | 6 =>
    match unpackWord w3 [27] with
    | [bd] => allow (decide (1 ≤ bd) && archiveCountOk w4 && archiveCountOk w5) (.archive bd w4.toNat w5.toNat)
    | _ => none
  | _ => none

/-- A trail record read; its sequence number is its key. A time that its bit says is absent is not judged (DESIGN CHOICE, log entry
82). -/
def trailOfWords (key : Nat) (b : List Word) : Option TrailRecord :=
  match unpackWord (wordAt b 2) [3, 1, 16] with
  | [k, tp, g] =>
    (trailBodyOfWords k b).bind fun body => allow (!isOne tp || timeOk (wordAt b 1))
      { sequence := key, time := if isOne tp then some (wordAt b 1).toNat else none, generation := g, body := body }
  | _ => none

end Sys2Proof.Machine
end

