-- ==== Sys2Proof/Machine/Frames.lean ====
section
/-! DEFINITION. Link frames (section 11.2, A.2) and the bytes of the responses that appendix A.3 lays out: the check, the
receive assembly, and the bodies of WEIGH, STATUS, TICKET TAKE and AUDIT POINT responses and of answers without fields. -/

namespace Sys2Proof.Machine

/-! ## The check and the receive assembly (R188, R189) -/

/-- One shift of the check register (R188). -/
def crcShift (r : BitVec 16) : BitVec 16 := if r.getLsbD 15 then (r <<< 1) ^^^ 0x1021#16 else r <<< 1

/-- One byte taken into the check register (R188). -/
def crcByte (r : BitVec 16) (b : Byte) : BitVec 16 :=
  crcShift (crcShift (crcShift (crcShift (crcShift (crcShift (crcShift (crcShift (r ^^^ (b ++ 0#8 : BitVec 16)))))))))

/-- The check over a list of bytes (R188). -/
def crc (bytes : List Byte) : BitVec 16 := bytes.foldl crcByte 0xFFFF#16

/-- A frame: marker, length, body and check, most significant byte of the check first (R188, A.2). -/
def frameBytes (body : List Byte) : List Byte :=
  let covered := BitVec.ofNat 8 body.length :: body
  let c := crc covered
  0x7E#8 :: covered ++ [c.extractLsb' 8 8, c.extractLsb' 0 8]

/-- What a byte brings to the receive assembly: nothing yet, a discarded frame, or a complete frame's body. -/
inductive Received
  | nothing
  | discarded
  | frame (body : List Byte)
  deriving DecidableEq, Repr

/-- One byte taken by the receive assembly (R189). -/
def takeByte (a : Assembly) (b : Byte) : Assembly × Received :=
  match a with
  | .hunting => if b = 0x7E#8 then (.length, .nothing) else (.hunting, .nothing)
  | .length => if 2 ≤ b.toNat ∧ b.toNat ≤ 120 then (.body b [], .nothing) else (.hunting, .discarded)
  | .body len got =>
    let got' := got ++ [b]
    if got'.length < len.toNat + 2 then (.body len got', .nothing)
    else
      let body := got'.take len.toNat
      let c := crc (len :: body)
      if got'.drop len.toNat = [c.extractLsb' 8 8, c.extractLsb' 0 8] then (.hunting, .frame body) else (.hunting, .discarded)

/-- Bytes taken one after another: the assembly after them, and what each brought. -/
def takeBytes : Assembly → List Byte → Assembly × List Received
  | a, [] => (a, [])
  | a, b :: t =>
    let (a', r) := takeByte a b
    let (a'', rs) := takeBytes a' t
    (a'', r :: rs)

/-- Whether bytes end in one discarded frame and bring nothing else: what FRAME_DISCARDED stands for. -/
def bringDiscard (a : Assembly) (bytes : List Byte) : Bool :=
  let (_, rs) := takeBytes a bytes
  rs.getLast? == some .discarded && rs.dropLast.all (fun r => r == .nothing)

/-- Whether bytes leave a frame partly received: what FRAME_GAP_TIMEOUT finds. -/
def leavePartial (a : Assembly) (bytes : List Byte) : Bool :=
  let (a', rs) := takeBytes a bytes
  a' != .hunting && rs.all (fun r => r == .nothing)

/-! ## Field encodings (A.1) -/

/-- One byte. -/
def byte1 (n : Nat) : List Byte := [BitVec.ofNat 8 n]

/-- An integer of some bytes, most significant byte first. -/
def bytesOf : Nat → Nat → List Byte
  | 0, _ => []
  | k + 1, n => BitVec.ofNat 8 (n / 256 ^ k) :: bytesOf k n

/-- A four-byte signed weight in tenths; absent is 0x80000000. -/
def weightBytes (w : Option Int) : List Byte := bytesOf 4 (match w with | some v => twos 32 v | none => 0x80000000)

/-- The ASCII code of an identity character. -/
def asciiOf (c : Nat) : Nat := if c ≤ 10 then 47 + c else if c ≤ 36 then 54 + c else 45

/-- A vehicle identity's 17 bytes. -/
def identityBytes (id : Identity) : List Byte :=
  byte1 id.length ++ (List.range 16).map fun i => BitVec.ofNat 8 (match id[i]? with | some c => asciiOf c | none => 0)

/-- The code of a verdict, from 1 in the order of R72's table. -/
def Verdict.linkCode : Verdict → Nat
  | .unchecked => 1 | .within => 2 | .minor => 3 | .major => 4

/-- The code of a group type, from 1 in the order of R70's table. -/
def GroupType.linkCode : GroupType → Nat
  | .single => 1 | .tandem => 2 | .triaxle => 3 | .quad => 4 | .irregular => 5

/-- The code of a role, from 1 in the order of R90. -/
def Role.linkCode : Role → Nat
  | .first => 1 | .second => 2 | .onePass => 3 | .tare => 4

/-- The code of a cell state, from 1 in the order of section 1.1. -/
def CellState.linkCode : CellState → Nat
  | .absent => 1 | .ok => 2 | .suspect => 3 | .fault => 4

/-- The code of a judgment, from 1 in the order of R105's table. -/
def Judgment.linkCode : Judgment → Nat
  | .valid => 1 | .generation => 2 | .future => 3 | .age => 4 | .absent => 5 | .timeUnset => 6

/-- The code of a visit state after a capture (A.3, offset 6). -/
def VisitAfter.linkCode : VisitAfter → Nat
  | .awaitingFirst => 1 | .opened => 2 | .held => 3 | .leaving => 4

/-- The bridge state's code and its phase's, 0 where there is none (section 2.1). -/
def BridgeState.linkCode : BridgeState → Nat × Nat
  | .start => (1, 0) | .empty => (2, 0) | .entering => (3, 0) | .standing => (4, 0) | .waiting => (5, 1)
  | .recording => (5, 2) | .leaving => (6, 0)

/-- The INDICATIVE reasons as bits 0 to 3 (A.3). -/
def Indicative.bits (i : Indicative) : Nat :=
  bit i.overspeed + 2 * bit i.cellFault + 4 * bit i.inconsistent + 8 * bit i.generation

/-- The marks of a pass as bits 0 to 5 (log entry 4). -/
def PassMarks.bits (m : PassMarks) : Nat :=
  bit m.followOn + 2 * bit m.reversed + 4 * bit m.sensorFault + 8 * bit m.cellFault + 16 * bit m.overspeed
    + 32 * bit m.calMode

/-- The status values in the order of section 11.7's table. -/
def statusOrder : List Status :=
  [.ok, .none, .empty, .invalid, .busy, .range, .storeBusy, .notFound, .damaged, .calMode, .audit, .timeUnset, .cellFault,
    .overRange, .underRange, .belowMin, .position, .unstable, .notStanding, .notEmpty, .moved, .released, .zeroRange,
    .noVisit, .held, .noCommodity, .visitVoided, .visitExpired, .registerFull, .negativeNet, .queueFull, .overloadHold,
    .numbersExhausted, .tareTableFull, .noTare, .duplicate, .visitInUse, .notHeld, .notPosted, .switchOpen, .bridgeBusy,
    .notCalMode, .duplicatePort, .adjustRange, .incomplete, .generationLimit, .auditFull, .notInAudit, .pointBusy,
    .sessionFull, .aborted, .nothingToArchive]

/-- The status byte: the place in that order, from 0 (A.1). -/
def Status.code (s : Status) : Nat := statusOrder.idxOf s

/-- A count that may be UNKNOWN, as four signed bytes (log entry 4). -/
def countBytes (c : Option Int) : List Byte := weightBytes c

/-- The data of an attention cause, in the order its rule names the fields (A.3). A.1 gives no form for CAL_ABORTED's yes-or-no mark
that the working copy differed; the model sends 0 for no and 1 for yes (DESIGN CHOICE, log entry 4). No table defines CAL_ABORTED's
reason, whose one value is SWITCH_OPEN; the model sends the byte 1 for it (DESIGN CHOICE, log entry 85). -/
def Cause.data : Cause → List Byte
  | .storeFault r s k src => byte1 (r.index + 1) ++ bytesOf 2 s ++ bytesOf 4 (optNumber k) ++ byte1 (src.code + 1)
  | .cellState p st => byte1 p ++ byte1 st.linkCode
  | .verifyStatus st g c =>
    byte1 (st.code + 1) ++ bytesOf 2 g ++ byte1 (match c with | .commit => 1 | .audit => 2 | .integrity => 3 | .start => 4)
  | .visitHeld v id w => bytesOf 2 v ++ identityBytes id ++ byte1 w.linkCode
  | .visitExpired v id n => bytesOf 2 v ++ identityBytes id ++ bytesOf 4 n
  | .visitDamaged v => bytesOf 2 v
  | .queueFull n h => byte1 n ++ bytesOf 4 h
  | .clockInvalid t => bytesOf 4 t
  | .sensorMismatch c => countBytes c
  | .passClosed o k r n m =>
    bytesOf 6 o ++ byte1 (match k with | .checked => 1 | .unchecked => 2)
      ++ byte1 (match r with | .normal => 1 | .tooManyAxles => 2 | .detectionOverrun => 3 | .released => 4)
      ++ byte1 n ++ byte1 m.bits
  | .wrongWay => []
  | .beamChange b bl => byte1 (match b with | .entry => 1 | .exit => 2) ++ byte1 (if bl then 1 else 2)
  | .bridgeState s c => byte1 s.linkCode.1 ++ byte1 s.linkCode.2 ++ countBytes c
  | .ticketAvailable n t => byte1 n ++ bytesOf 4 t
  | .calAborted d => byte1 1 ++ byte1 (bit d)
  | .trailNearFull u f => bytesOf 2 u ++ bytesOf 2 f

/-- The result bytes of a WEIGH response that records a weighing, offsets 3 to 28 (A.3). -/
def WeighFields.bytes (f : WeighFields) : List Byte :=
  (match f.note with
    | .none => byte1 0 ++ byte1 0
    | .invalid j => byte1 1 ++ byte1 j.linkCode
    | .created => byte1 0 ++ byte1 1
    | .replaced => byte1 0 ++ byte1 2)
  ++ byte1 (match f.role with | some r => r.linkCode | none => 0)
  ++ byte1 (match f.visitState with | some v => v.linkCode | none => 0)
  ++ bytesOf 2 (optNumber f.visit) ++ bytesOf 4 f.weighing ++ weightBytes (some f.weight)
  ++ bytesOf 4 (optNumber f.ticket) ++ weightBytes f.net
  ++ (match f.summary with
    | .noFields => [0#8, 0#8, 0#8, 0#8]
    | .absent => [1#8, 0#8, 0#8, 0#8]
    | .present w g i => byte1 2 ++ byte1 w.linkCode ++ byte1 g.linkCode ++ byte1 i.bits)

/-- The 16 bytes of a group record (A.3). -/
def GroupReport.bytes (g : GroupReport) : List Byte :=
  byte1 g.first ++ byte1 g.count ++ byte1 g.type.linkCode ++ bytesOf 4 (twos 32 g.load) ++ bytesOf 4 (twos 32 g.reported)
    ++ bytesOf 4 g.limit ++ byte1 g.verdict.linkCode

/-- The bytes of whole words. -/
def wordsBytes (ws : List Word) : List Byte := (ws.map fun w => bytesOf 4 w.toNat).flatten

/-- The summary header of A.4 as 22 bytes. For a ticket without a summary A.3 gives none; the model sends them all zero (DESIGN CHOICE,
log entry 81). -/
def summaryHeaderBytes (s : Option AxleSummary) (figures : Option SummaryFigures) : List Byte :=
  match s, figures with
  | some s, some f => bytesOf 22 ((packBits (summaryHeader s f.axles)).2)
  | _, _ => List.replicate 22 0#8

/-- The verdicts and reported sum a ticket response carries. For a ticket without a summary A.3 gives none; the model sends the verdicts
as 0 and the sum as 0x80000000, the absent values of A.1 (DESIGN CHOICE, log entry 81). -/
def verdictBytes (figures : Option SummaryFigures) : List Byte :=
  match figures with
  | some f => byte1 f.worst.linkCode ++ byte1 f.gross.linkCode ++ bytesOf 4 (twos 32 f.reportedSum)
  | none => byte1 0 ++ byte1 0 ++ weightBytes none

/-- An error in 0.1 e units in its two-byte signed field; outside the field it is a value the manual leaves open. -/
def errorField16 (v : Int) : BitVec 16 :=
  if -32768 ≤ v ∧ v ≤ 32767 then BitVec.ofInt 16 v else Config.errorField v

/-- The result bytes of a response whose layout A.3 gives, after code, tag and status; `none` where it gives none. A.3 lays out the
group parts of TICKET TAKE; the model gives those of RECORD READ and VISIT READ the same bytes, a visit number in four bytes (DESIGN
CHOICE, log entry 42). The clock's valid flag in a STATUS response is the byte 0 or 1 (DESIGN CHOICE, log entry 4). The repeat count of
a STATUS response with no cause is the byte 0, for which A.1 gives no absent value (DESIGN CHOICE, log entry 86). -/
def Body.bytes (priority : Cause → Nat) : Body → Option (List Byte)
  | .none => some []
  | .weigh f => some f.bytes
  | .status c left errors time valid =>
    some ((match c with
        | .some p => byte1 (priority p.cause) ++ byte1 p.repeats
        | .none => [0#8, 0#8])
      ++ byte1 left ++ bytesOf 2 errors ++ bytesOf 4 time ++ byte1 (bit valid)
      ++ (match c with | .some p => p.cause.data | .none => []))
  | .take n takes posted pending (.some t) figures parts nGroups =>
    some (bytesOf 4 n ++ byte1 takes ++ byte1 posted ++ byte1 pending ++ byte1 parts ++ byte1 nGroups
      ++ wordsBytes ((ticketWords t false).take 11) ++ verdictBytes figures ++ summaryHeaderBytes t.summary figures)
  | .groups part key list =>
    some (byte1 part ++ bytesOf 4 key
      ++ ((list.map GroupReport.bytes) ++ List.replicate (6 - list.length) (List.replicate 16 0#8)).flatten)
  | .point n i err errE mpe passed =>
    some (byte1 n ++ bytesOf 4 (twos 32 i) ++ bytesOf 4 (twos 32 err) ++ bytesOf 2 (errorField16 errE).toNat
      ++ bytesOf 4 mpe.toNat ++ byte1 (if passed then 1 else 2))
  | _ => .none

/-- A response's body: the code with its top bit set, the tag, the status byte and the result fields (R191, A.3). -/
def Response.bytes (priority : Cause → Nat) (r : Response) : Option (List Byte) :=
  (r.body.bytes priority).map fun b => (r.code ||| 0x80#8) :: r.tag :: BitVec.ofNat 8 r.status.code :: b

end Sys2Proof.Machine
end

