-- ==== Sys2Proof/Machine/Sparse.lean ====
section
/-! DEFINITION. A table over natural keys in one canonical form: a list of pairs with keys strictly rising and no entry
equal to what an unlisted key reads as. The protected store's words, the slot index and the paired slots' write positions
are held in it. -/

namespace Sys2Proof.Machine

/-- What a key reads as: its entry, or the default of an unlisted key. -/
def tableRead {α : Type} (d : α) (k : Nat) : List (Nat × α) → α
  | [] => d
  | (i, v) :: t => if k = i then v else tableRead d k t

/-- A write in canonical form: a value equal to the default removes the entry. -/
def tableWrite {α : Type} [DecidableEq α] (d : α) (k : Nat) (x : α) : List (Nat × α) → List (Nat × α)
  | [] => if x = d then [] else [(k, x)]
  | (i, v) :: t =>
    if k < i then (if x = d then (i, v) :: t else (k, x) :: (i, v) :: t)
    else if k = i then (if x = d then t else (k, x) :: t)
    else (i, v) :: tableWrite d k x t

/-- The canonical form of the part of a table whose keys are at least `low`. -/
def tableFrom {α : Type} [DecidableEq α] (d : α) : Nat → List (Nat × α) → Bool
  | _, [] => true
  | low, (i, v) :: t => decide (low ≤ i) && decide (v ≠ d) && tableFrom d (i + 1) t

/-- The canonical form: keys strictly rising, no entry equal to the default. -/
def tableWf {α : Type} [DecidableEq α] (d : α) (t : List (Nat × α)) : Bool := tableFrom d 0 t

/-- The protected store: its 39-bit words by address. -/
abbrev Memory := List (Nat × StoreWord)

/-- A word of the store. A store never written holds the all-zero word everywhere (R135). -/
def Memory.read (m : Memory) (a : Nat) : StoreWord := tableRead 0#39 a m

/-- A word written into the store. -/
def Memory.write (m : Memory) (a : Nat) (w : StoreWord) : Memory := tableWrite 0#39 a w m

/-- Several words written in order. -/
def Memory.writeAll (m : Memory) : List (Nat × StoreWord) → Memory
  | [] => m
  | (a, w) :: t => Memory.writeAll (m.write a w) t

/-- The canonical form of the store. -/
def Memory.wf (m : Memory) : Bool := tableWf 0#39 m

end Sys2Proof.Machine
end

