-- ==== Sys2Proof/Machine/StartValues.lean ====
section
/-! DEFINITION. The start values of each block, as its chapter states them for power-on and RESTART. -/

namespace Sys2Proof.Machine

/-- A port record at start-up (R2); before the scan ends the state is ABSENT (log entry 1). -/
def PortRecord.start : PortRecord := ⟨none, false, false, 0, 0, 0, .absent⟩

/-- The last sample result before the first sample since a start-up: nothing computed, not stable, INVALID with NO_VALUE
(DESIGN CHOICE: the manual gives none; log entry 2). -/
def SampleResult.start : SampleResult :=
  { cellValues := [], deckSums := [], rawTotal := 0, gross := 0, filtered := 0, stable := false, range := .within,
    indicated := some 0, expanded := some 0, invalid := ⟨false, true, false, false⟩, saturated := false }

/-- The weighing unit at start-up (R14, R19, R33, R35). -/
def Weighing.start : Weighing := ⟨0, [], [], [], 0, false, SampleResult.start, 0⟩

/-- The axle unit at start-up (R45). -/
def AxleUnit.start : AxleUnit := ⟨0, [], none⟩

/-- The bridge monitor at start-up (R24), its beams at given levels. -/
def Bridge.start (entryBlocked exitBlocked : Bool) : Bridge :=
  { state := .start, count := none, entryEnd := .pair, entryBeam := ⟨entryBlocked, false, entryBlocked⟩,
    exitBeam := ⟨exitBlocked, false, exitBlocked⟩, request := none, leavingSeen := false, heldRelease := false }

/-- The yard register before the scan ends (R81). -/
def Yard.start : Yard := ⟨[], 0, none⟩

/-- The ticket unit before the scan ends (R102, R124). -/
def Tickets.start : Tickets := ⟨[], 0, 0, []⟩

/-- The metrology unit before the scan ends: the values of a blank start (R8, R149, R153, R170; log entry 1). -/
def Metrology.start : Metrology :=
  { current := ParamSet.blank, site := SiteSettings.defaults, generation := 0, status := .pending, statusSeq := 0,
    paramHeld := false, working := none, differs := false, zeroCapture := none, switchClosed := false, session := none,
    lastSeq := 0, boundary := 0, findings := [] }

/-- How many slots each region has, in region order (R140). -/
def regionSlots : List Nat := [1, 1, 64, 256, 32, 4096, 2048, 512]

/-- The store controller's volatile state at start-up (R146). -/
def Store.start : Store :=
  { queue := [], waiting := [], corrected := 0, uncorrectable := 0, index := [], pairs := [], blankStart := false,
    counts := regionSlots.map fun n => ⟨0, n, 0, 0⟩, patrol := 0, sweeps := 0, cut := [] }

/-- A link at start-up (R201). Its rate until the scan ends is given by no rule; the model holds the default of 19,200 baud there
(DESIGN CHOICE, log entry 1). -/
def LinkState.start : LinkState :=
  { assembly := .hunting, breakHeld := false, slot := none, handedOff := none, tx := [], waiting := [],
    causes := [], errors := 0, rate := .b19200, newRates := [] }

/-- The links at start-up: no cause pending but CLOCK_INVALID where the clock is invalid (R198, R201). -/
def Links.start (c : Clock) : Links :=
  { console := { LinkState.start with causes := if c.valid then [] else [⟨.clockInvalid c.count, 0⟩] },
    lane := LinkState.start, inventory := LinkState.start, service := LinkState.start }

end Sys2Proof.Machine
end

