-- ==== Sys2Proof/Machine/State.lean ====
section
/-! DEFINITION. The state of the controller as plain data: one part per block of the manual, the protected store's words,
the levels of the inputs, the phase of the start-up, and the queue of waiting commands; and its value after reset. -/

namespace Sys2Proof.Machine

/-- The controller without its queue of commands. `restartPending` is a RESTART answered and not yet in effect, with the number of
service responses still to be sent up to its own (R199). -/
structure Dev where
  phase : Phase
  restartPending : Option Nat
  pins : Pins
  cells : Vector PortRecord 18
  weighing : Weighing
  axle : AxleUnit
  bridge : Bridge
  yard : Yard
  tickets : Tickets
  metro : Metrology
  store : Store
  nv : List (Nat × StoreWord)
  links : Links
  clock : Clock
  deriving DecidableEq, Repr

/-- The state: the controller, and the commands waiting for it, first in first out. -/
structure State where
  dev : Dev
  pending : List Instr
  deriving DecidableEq, Repr

/-- The reasons a step can stop with a fault. -/
inductive Fault
  /-- A word outside the store's 130,768 (R140). No command raises it: the store is addressed only by the slots the
  controller computes. Safe. -/
  | outsideStore
  deriving DecidableEq, Repr

/-- The reasons a step can be refused. -/
inductive Refusal
  /-- Raised by a dispatch arm for a command that has no meaning yet. Safe. No arm raises it now. -/
  | notModelled (mnemonic : String)
  deriving DecidableEq, Repr

/-- Every block at its start values, with the scan about to read the store (R201, R146); what survives a start-up is the
store, the clock and the inputs. -/
def Dev.start (nv : List (Nat × StoreWord)) (clock : Clock) (pins : Pins) : Dev :=
  { phase := .scanning, restartPending := none, pins := pins, cells := Vector.replicate 18 PortRecord.start,
    weighing := Weighing.start, axle := AxleUnit.start, bridge := Bridge.start pins.entryBlocked pins.exitBlocked,
    yard := Yard.start, tickets := Tickets.start, metro := Metrology.start, store := Store.start, nv := nv,
    links := Links.start clock, clock := clock }

/-- The machine right after power-on: a store never written, the clock reset because its backup supply had failed, beams
clear and the switch open (log entry 1). -/
def State.reset : State :=
  { dev := Dev.start [] ⟨0, false⟩ ⟨false, false, false⟩, pending := [] }

end Sys2Proof.Machine
end

