-- ==== Sys2Proof/Machine/Flags.lean ====
section
/-! DEFINITION. The attention causes (section 11.4): each link's kinds in priority order, raising a cause with its repeat
count, and the attention lines. -/

namespace Sys2Proof.Machine

/-- A link of the four. -/
def Links.get (k : Links) : Link → LinkState
  | .console => k.console | .lane => k.lane | .inventory => k.inventory | .service => k.service

/-- The links with one of them changed. -/
def Links.modify (k : Links) (l : Link) (f : LinkState → LinkState) : Links :=
  match l with
  | .console => { k with console := f k.console }
  | .lane => { k with lane := f k.lane }
  | .inventory => { k with inventory := f k.inventory }
  | .service => { k with service := f k.service }

/-- The links with each of them changed alike. -/
def Links.mapAll (k : Links) (f : LinkState → LinkState) : Links := ⟨f k.console, f k.lane, f k.inventory, f k.service⟩

/-- The place of a cause's kind in the priority order of a link, from 1; 0 for a kind the link does not have (section 11.4). -/
def priority (l : Link) (c : Cause) : Nat :=
  match l, c with
  | .console, .storeFault .. => 1
  | .console, .cellState .. => 2
  | .console, .verifyStatus .. => 3
  | .console, .visitHeld .. => 4
  | .console, .visitExpired .. => 5
  | .console, .visitDamaged .. => 6
  | .console, .queueFull .. => 7
  | .console, .clockInvalid .. => 8
  | .lane, .sensorMismatch .. => 1
  | .lane, .passClosed .. => 2
  | .lane, .wrongWay => 3
  | .lane, .beamChange .. => 4
  | .lane, .bridgeState .. => 5
  | .inventory, .queueFull .. => 1
  | .inventory, .ticketAvailable .. => 2
  | .service, .storeFault .. => 1
  | .service, .calAborted .. => 2
  | .service, .verifyStatus .. => 3
  | .service, .cellState .. => 4
  | .service, .trailNearFull .. => 5
  | _, _ => 0

/-- A cause raised in a link's list, which stands in priority order: a pending cause of its kind takes the new data and a
repeat more; otherwise it becomes pending with a repeat count of 0 (R195). -/
def raiseIn (pr : Cause → Nat) (c : Cause) : List Pending → List Pending
  | [] => [⟨c, 0⟩]
  | p :: t =>
    if pr c < pr p.cause then ⟨c, 0⟩ :: p :: t
    else if pr c = pr p.cause then ⟨c, satInc 255 p.repeats⟩ :: t
    else p :: raiseIn pr c t

/-- A change of one link. -/
def Dev.onLink (d : Dev) (l : Link) (f : LinkState → LinkState) : Dev := { d with links := d.links.modify l f }

/-- A cause raised on a link (R195). -/
def Dev.raise (d : Dev) (l : Link) (c : Cause) : Dev :=
  d.onLink l fun k => { k with causes := raiseIn (priority l) c k.causes }

/-- A cause raised on the console and the service link. -/
def Dev.raiseBoth (d : Dev) (c : Cause) : Dev := (d.raise .console c).raise .service c

/-- Several causes raised on one link, in order. -/
def Dev.raiseAll (d : Dev) (l : Link) : List Cause → Dev
  | [] => d
  | c :: t => (d.raise l c).raiseAll l t

/-- The attention line of a link: asserted while a cause is pending and the links accept frames (R195). A link that a break holds is
taken to accept frames here, so that a cause raised meanwhile asserts its line (DESIGN CHOICE, log entry 80). -/
def Dev.attentionLine (d : Dev) (l : Link) : Bool := d.phase == .running && !(d.links.get l).causes.isEmpty

end Sys2Proof.Machine
end

