-- ==== Sys2Proof/Machine/Ops.lean ====
section
/-! DEFINITION. The operations the commands share: answering on a link, dispatching a frame, offering an operation to the
store, reading a slot with its error counting, and offering trail records. -/

namespace Sys2Proof.Machine

/-! ## Where the controller stands -/

/-- The blocks take inputs once the scan has ended, until RESTART takes effect or power fails (R148, R199, R200). -/
def Dev.active (d : Dev) : Bool := d.phase == .startWrites || d.phase == .running

/-- The links accept frames (R201). -/
def Dev.accepting (d : Dev) : Bool := d.phase == .running

/-- Calibration mode is ACTIVE (section 9.1). -/
def Dev.calActive (d : Dev) : Bool := d.metro.working.isSome

/-- An audit session is OPEN (section 10.1). -/
def Dev.inSession (d : Dev) : Bool := d.metro.session.isSome

/-- The parameter set in force (R8). -/
def Dev.inForce (d : Dev) : ParamSet := d.metro.working.getD d.metro.current

/-- The last completed bridge sample result. -/
def Dev.lastSample (d : Dev) : SampleResult := d.weighing.last

/-- INVALID for any reason (R12). -/
def Invalid.any (i : Invalid) : Bool := i.cellFault || i.noValue || i.unset || i.unmapped

/-- A port's record; a port outside the eighteen reads as a start record. -/
def Dev.port (d : Dev) (p : Nat) : PortRecord := d.cells[p]?.getD PortRecord.start

/-- A change of one port's record. -/
def Dev.setPort (d : Dev) (p : Nat) (r : PortRecord) : Dev := { d with cells := d.cells.setIfInBounds p r }

/-- The clock time, absent where the clock is invalid (R179). -/
def Dev.timeOpt (d : Dev) : Option Nat := if d.clock.valid then some d.clock.count else none

/-! ## Answers (R191 to R193) -/

/-- The response frames a transmit queue holds at most (R193). -/
def maxFrames : Nat := 8

/-- A response formed: it joins the transmit queue, or waits for a place behind a queue that holds 8 (R193, log entry 6). -/
def LinkState.send (k : LinkState) (r : Response) : LinkState :=
  if k.waiting = [] ∧ k.tx.length < maxFrames then { k with tx := k.tx ++ [r] } else { k with waiting := k.waiting ++ [r] }

/-- How many responses a link has still to send. -/
def LinkState.toSend (k : LinkState) : Nat := k.tx.length + k.waiting.length

/-- Whether a command of a link is still EXECUTING: it is in the slot, or its response waits for a place (R192, log entry 6). -/
def LinkState.executing (k : LinkState) : Bool := k.slot.isSome || !k.waiting.isEmpty

/-- A response formed on a link. -/
def Dev.respond (d : Dev) (l : Link) (code tag : Byte) (status : Status) (body : Body) : Dev :=
  d.onLink l fun k => k.send ⟨code, tag, status, body⟩

/-- An answer of the link unit itself: formed where the transmit queue holds fewer than 6 frames, otherwise dropped with the
error count raised (R193). -/
def Dev.linkAnswer (d : Dev) (l : Link) (code tag : Byte) (status : Status) : Dev :=
  d.onLink l fun k =>
    if k.tx.length < 6 then { k with tx := k.tx ++ [⟨code, tag, status, .none⟩] }
    else { k with errors := satInc 65535 k.errors }

/-- The command in a link's slot ends: the slot returns to IDLE, and its response is formed unless a break has taken it. -/
def Dev.finish (d : Dev) (l : Link) (status : Status) (body : Body) : Dev :=
  d.onLink l fun k =>
    match k.slot with
    | none => k
    | some s =>
      if s.silent then { k with slot := none } else { k with slot := none }.send ⟨s.code, s.tag, status, body⟩

/-- The command in a link's slot is handed off to wait: the slot returns to IDLE and its code and tag are kept (R192). -/
def Dev.handOff (d : Dev) (l : Link) : Dev :=
  d.onLink l fun k => { k with slot := none, handedOff := k.slot.map fun s => (s.code, s.tag) }

/-- The response of a handed-off command; none is formed where a break has ended it (R190, R192). -/
def Dev.answerHandedOff (d : Dev) (l : Link) (status : Status) (body : Body) : Dev :=
  d.onLink l fun k =>
    match k.handedOff with
    | none => k
    | some (c, t) => { k with handedOff := none }.send ⟨c, t, status, body⟩

/-- A complete command frame dispatched: lost where the link takes no frames; otherwise INVALID, BUSY and RANGE in this
order, and the command passes to its block with the slot EXECUTING (R192). `valid` is that the body has an allowed length
on a link that has the command; `inRange` is the link unit's range test. -/
def Dev.dispatch (d : Dev) (l : Link) (code tag : Byte) (valid inRange : Bool) (run : Dev → Dev) : Dev :=
  let k := d.links.get l
  if !d.accepting || k.breakHeld then d
  else if !valid then d.linkAnswer l code tag .invalid
  else if k.executing then d.linkAnswer l code tag .busy
  else if !inRange then d.linkAnswer l code tag .range
  else run (d.onLink l fun k => { k with slot := some ⟨code, tag, false⟩ })

/-! ## The write queue (R141 to R143) -/

/-- The slot index's entry of an unlisted slot. -/
def indexDefault : IndexEntry := ⟨.absent, 0⟩

/-- A paired slot never written: copy 0 is current, so the first write takes copy 1 with copy count 1 (R141). -/
def pairDefault : PairState := ⟨1, 1⟩

/-- The slot index's entry of an archive or trail slot. -/
def Store.indexAt (s : Store) (r : Region) (slot : Nat) : IndexEntry :=
  tableRead indexDefault (slotNumber r slot) s.index

/-- The slot index changed at one slot. -/
def Store.setIndex (s : Store) (r : Region) (slot : Nat) (e : IndexEntry) : Store :=
  { s with index := tableWrite indexDefault (slotNumber r slot) e s.index }

/-- The write position of a paired slot. -/
def Store.pairAt (s : Store) (r : Region) (slot : Nat) : PairState :=
  tableRead pairDefault (slotNumber r slot) s.pairs

/-- A record write taken at admission: a paired slot gives it a copy and a copy count and moves on, an archive or trail slot
is marked GIVEN with the new key (R141, R142). -/
def Store.take (s : Store) (spec : RecordSpec) : QueueEntry × Store :=
  if spec.region.paired then
    let p := s.pairAt spec.region spec.slot
    (.record spec p.nextCopy p.nextCount none,
      { s with pairs := tableWrite pairDefault (slotNumber spec.region spec.slot)
                 ⟨1 - p.nextCopy, (p.nextCount + 1) % 4⟩ s.pairs })
  else (.record spec 0 0 none, s.setIndex spec.region spec.slot ⟨.given, spec.key⟩)

/-- The record writes of an operation taken in order. -/
def Store.takeAll (s : Store) : List RecordSpec → List QueueEntry × Store
  | [] => ([], s)
  | spec :: t =>
    let (e, s') := s.take spec
    let (es, s'') := Store.takeAll s' t
    (e :: es, s'')

/-- An operation's report attached to its last record. -/
def attachReport (report : Done) : List QueueEntry → List QueueEntry
  | [] => []
  | [.record spec c n _] => [.record spec c n (some report)]
  | e :: t => e :: attachReport report t

/-- Entries joined to the tail, the queue holding at most 16 and the rest waiting in order (R142, R143). -/
def Store.join (s : Store) (es : List QueueEntry) : Store :=
  let all := s.queue ++ s.waiting ++ es
  { s with queue := all.take 16, waiting := all.drop 16 }

/-- Whether an operation of `n` records is admitted: up to 16 into the free spaces while no long operation is entering, a
longer one only into an empty queue (R142, R143). -/
def Store.admits (s : Store) (n : Nat) : Bool :=
  s.waiting.isEmpty && (if n ≤ 16 then decide (s.queue.length + n ≤ 16) else s.queue.isEmpty)

/-- An operation offered to the store controller; `none` is STORE_BUSY. None is admitted while RESTART drains (R146). -/
def Dev.offer (d : Dev) (specs : List RecordSpec) (report : Done) : Option Dev :=
  if d.active && d.store.admits specs.length then
    let (es, s) := d.store.takeAll specs
    some { d with store := s.join (attachReport report es) }
  else none

/-- A start-up write: it enters in the order it is made, as a space frees, and is never refused (R148). -/
def Dev.startWrite (d : Dev) (spec : RecordSpec) (report : Done) : Dev :=
  let (es, s) := d.store.takeAll [spec]
  { d with store := s.join (attachReport report es) }

/-- A scrub write entered where a space is free and no long operation is entering (R137, R143, R146). -/
def Store.enterScrub (s : Store) (address : Nat) : Store :=
  if s.queue.length < 16 ∧ s.waiting = [] then { s with queue := s.queue ++ [.scrub address] } else s

/-! ## Reading the store (R136 to R138) -/

/-- One word as read: its address, class and delivered data. -/
structure WordRead where
  address : Nat
  cls : WordClass
  data : Option Word
  deriving DecidableEq, Repr

/-- The words of one copy of a slot, read in order. -/
def readCopy (nv : Memory) (r : Region) (slot copy : Nat) : List WordRead :=
  (List.range r.words).map fun i =>
    let a := recordBase r slot copy + i
    let c := readClass (Memory.read nv a)
    ⟨a, c.1, c.2⟩

/-- Whether a word as read raises the corrected-error counter (R137). -/
def WordRead.wasCorrected (w : WordRead) : Bool := w.cls == .corrected || w.cls == .correctedCheck

/-- The key of a record as read, where its completion word is sound (R138). -/
def keyOfReads (reads : List WordRead) : Option Nat :=
  match reads.getLast? with
  | some w => w.data.map fun c => (headerFields c).2.2
  | none => none

/-- The counts and scrub writes of a list of reads after start-up, and STORE_FAULT for each DOUBLE word where `faults`
(R137, R138). -/
def Dev.noteReads (d : Dev) (r : Region) (slot : Nat) (source : ReadSource) (faults : Bool) (key : Option Nat) :
    List WordRead → Dev
  | [] => d
  | w :: t =>
    let d :=
      if w.wasCorrected then
        { d with store := ({ d.store with corrected := satInc 65535 d.store.corrected }).enterScrub w.address }
      else if w.cls = .double then
        let d := { d with store := { d.store with uncorrectable := satInc 65535 d.store.uncorrectable } }
        if faults then d.raiseBoth (.storeFault r slot key source) else d
      else d
    d.noteReads r slot source faults key t

/-- What reading an archive or trail slot that holds a record finds: the words between its first and last, or that it is
DAMAGED, or that its completion word is lost. -/
inductive SlotRead
  | words (body : List Word)
  | damaged
  | lost
  deriving DecidableEq, Repr

/-- The body words of a copy whose words are all sound. -/
def bodyOfReads (reads : List WordRead) : List Word := (reads.dropLast.drop 1).map fun w => w.data.getD 0#32

/-- The finding of a slot's reads (R138). An inner DOUBLE word makes the record DAMAGED, also where its first word is sound and differs
from the completion word, a case that R138 leaves out (DESIGN CHOICE, log entry 70). -/
def findSlot (reads : List WordRead) : SlotRead :=
  match reads.getLast? with
  | some w =>
    if w.cls = .double then .lost
    else if reads.any (fun w => w.cls == .double) then .damaged
    else .words (bodyOfReads reads)
  | none => .lost

/-- The slot index's marking of a read slot: ABSENT where the completion word is lost, DAMAGED where another word is (R138). -/
def Store.markRead (s : Store) (r : Region) (slot : Nat) : SlotRead → Store
  | .words _ => s
  | .damaged => s.setIndex r slot ⟨.damaged, (s.indexAt r slot).key⟩
  | .lost => s.setIndex r slot indexDefault

/-- A read of an archive or trail slot that the index says holds a record: counting, marking and the finding. -/
def Dev.readSlot (d : Dev) (r : Region) (slot : Nat) (source : ReadSource) : SlotRead × Dev :=
  let reads := readCopy d.nv r slot 0
  let found := findSlot reads
  let d := d.noteReads r slot source true (keyOfReads reads) reads
  (found, { d with store := d.store.markRead r slot found })

/-! ## The audit trail (section 10.4) -/

/-- The unarchived count (R180). -/
def Metrology.unarchived (m : Metrology) : Nat := m.lastSeq - m.boundary

/-- The free spaces of the trail (R180). -/
def Metrology.free (m : Metrology) : Nat := 512 - m.unarchived

/-- The highest sequence number (R179). -/
def maxSequence : Nat := 134217727

/-- Trail records with consecutive sequence numbers after a last one given (R179). -/
def trailRecords (last generation : Nat) (time : Option Nat) : List TrailBody → List TrailRecord
  | [] => []
  | b :: t => ⟨last + 1, time, generation, b⟩ :: trailRecords (last + 1) generation time t

/-- TRAIL_NEAR_FULL where the unarchived count rises from below 480 to 480 or above (R180). -/
def Dev.nearFull (d : Dev) (before : Nat) : Dev :=
  if before < 480 ∧ 480 ≤ d.metro.unarchived then
    d.raise .service (.trailNearFull d.metro.unarchived d.metro.free)
  else d

/-- An operation that carries trail records of any kind but ARCHIVE, followed by other records: AUDIT_FULL, STORE_BUSY, or
admitted with its sequence numbers given (R179, R180). -/
def Dev.offerTrail (d : Dev) (bodies : List TrailBody) (generation : Nat) (time : Option Nat)
    (rest : List RecordSpec) (report : Done) : Except Status Dev :=
  let k := bodies.length
  if d.metro.free < k + 1 ∨ maxSequence < d.metro.lastSeq + k then .error .auditFull
  else
    match d.offer ((trailRecords d.metro.lastSeq generation time bodies).map trailSpec ++ rest) report with
    | none => .error .storeBusy
    | some d' =>
      .ok (Dev.nearFull { d' with metro := { d'.metro with lastSeq := d.metro.lastSeq + k } } d.metro.unarchived)

/-- The counters block as it stands (R178). -/
def Metrology.countersRecord (m : Metrology) : RecordSpec := countersSpec m.generation m.status m.statusSeq

/-- The parameter block as it stands: the current set, the generation and the settings, never the working copy (section
9.1). -/
def Metrology.paramRecord (m : Metrology) : RecordSpec := paramSpec m.current m.generation m.site

/-- VERIFY_STATUS on the console and service links, with the status and generation as they stand (R178). -/
def Dev.verifyStatus (d : Dev) (c : VerifyCause) : Dev :=
  d.raiseBoth (.verifyStatus d.metro.status d.metro.generation c)

end Sys2Proof.Machine
end

