-- ==== Sys2Proof/Machine/Captures.lean ====
section
/-! DEFINITION. The captures that wait over bridge samples, as the other blocks' events end them: the zero capture of CAL
ZERO, the waiting audit point, and the use of a visit by a WEIGH in RECORDING. -/

namespace Sys2Proof.Machine

/-- A zero capture that an event ends early: it is cleared and CAL ZERO is answered with the event's code (R160). One that
has its hundred samples is complete and is not ended. -/
def Dev.endZeroCapture (d : Dev) (status : Status) : Dev :=
  match d.metro.zeroCapture with
  | none => d
  | some z =>
    if z.count < 100 then ({ d with metro := { d.metro with zeroCapture := none } } : Dev).finish .service status .none else d

/-- The waiting point of an audit session. -/
def Dev.waitingPoint (d : Dev) : Option WaitingPoint := d.metro.session.bind (·.waiting)

/-- The waiting point cleared, nothing appended (R174). -/
def Dev.clearPoint (d : Dev) : Dev :=
  { d with metro := { d.metro with session := d.metro.session.map fun s => { s with waiting := none } } }

/-- A waiting point that ends without a capture, answered with the event's code (R174). -/
def Dev.endPoint (d : Dev) (status : Status) : Dev :=
  match d.waitingPoint with
  | none => d
  | some _ => d.clearPoint.answerHandedOff .service status .none

/-- The end of a visit's use: a visit its capture removes leaves the register (R84). -/
def Yard.endUse (y : Yard) : Yard :=
  match y.inUse with
  | none => y
  | some u =>
    { y with inUse := none,
             visits := if u.leaving then y.visits.filter fun v => v.number != u.number else y.visits }

end Sys2Proof.Machine
end

