-- ==== Sys2Proof/Machine/Cells.lean ====
section
/-! DEFINITION. The cell intake unit (chapter 1): sample frames, the port records and their states, ports entering and leaving
use, and CELL READ. -/

namespace Sys2Proof.Machine

/-- A failed sample: counts and state by the table of R5. -/
def PortRecord.fail (r : PortRecord) : PortRecord :=
  let fails := satInc 255 r.fails
  { r with
    fails := fails, goods := 0,
    state := match r.state with
      | .absent => .absent
      | .ok => .suspect
      | .suspect => if 10 ≤ fails then .fault else .suspect
      | .fault => .fault }

/-- An accepted frame: the latest value, counts, arrival mark and state (R1, R5); its value is not held (R22). -/
def PortRecord.accept (r : PortRecord) (latest : Latest) : PortRecord :=
  let goods := satInc 65535 r.goods
  { r with
    latest := some latest, fails := 0, goods := goods, arrival := true, fresh := true,
    state := match r.state with
      | .absent => .absent
      | .ok => .ok
      | .suspect => .ok
      | .fault => if 100 ≤ goods then .ok else .fault }

/-- A discarded frame: a check error, a failed sample and the arrival mark (R1). -/
def PortRecord.discard (r : PortRecord) : PortRecord :=
  { r.fail with checkErrors := satInc 65535 r.checkErrors, arrival := true }

/-- A sample frame's raw count and saturation mark, where it has five bytes that sum to zero modulo 256 (R1, A.2). -/
def frameLatest (bytes : List Byte) : Option Latest :=
  match bytes with
  | [b0, b1, b2, b3, b4] =>
    if b0 + b1 + b2 + b3 + b4 = 0#8 then some ⟨(b0 ++ b1 ++ b2 : BitVec 24).toInt, b3.getLsbD 0⟩ else none
  | _ => none

/-- A port's record replaced, with CELL_STATE on the console and service links where the port enters or leaves FAULT (R5). -/
def Dev.putPort (d : Dev) (p : Nat) (r : PortRecord) : Dev :=
  let was := (d.port p).state
  let d := d.setPort p r
  if (was == .fault) != (r.state == .fault) then d.raiseBoth (.cellState p r.state) else d

/-- SAMPLE_FRAME (R1): the frame is accepted or discarded; a frame of which a byte came before the scan's end is lost uncounted
(R2, R202), and its sender gives it with no bytes, which no frame that is taken has (log entry 58). -/
def Dev.sampleFrame (d : Dev) (p : Nat) (bytes : List Byte) : Dev :=
  if !d.active || bytes.isEmpty then d
  else
    match frameLatest bytes with
    | some l => d.putPort p ((d.port p).accept l)
    | none => d.putPort p ((d.port p).discard)

/-- The bridge sample's read of one port in use: its arrival mark is cleared, or it counts a stale sample (R3). -/
def Dev.readPort (d : Dev) (p : Nat) : Dev :=
  let r := d.port p
  if r.arrival then d.setPort p { r with arrival := false } else d.putPort p r.fail

/-- The bridge sample's read of the ports in use (R3). The manual gives no order; the model reads them in port order, which decides
the data of a CELL_STATE raised for several ports at one sample (DESIGN CHOICE, log entry 47). -/
def Dev.readPorts (d : Dev) : List Nat → Dev
  | [] => d
  | p :: t => (if d.inForce.inUse p then d.readPort p else d).readPorts t

/-- A port entering use: SUSPECT with a consecutive-failure count of 1 (R6). -/
def PortRecord.enterUse (r : PortRecord) : PortRecord := { r with state := .suspect, fails := 1, goods := 0 }

/-- A port leaving use: ABSENT, counts 0, and the saturation mark leaves its latest value (R6, R7). -/
def PortRecord.leaveUse (r : PortRecord) : PortRecord :=
  { r with state := .absent, fails := 0, goods := 0,
           latest := r.latest.map fun l => { l with saturated := false } }

/-- Ports enter and leave use as the set in force changes from one set to another (R6). The manual gives no order; the model goes in
port order, which decides the data of a CELL_STATE raised for several ports at one change (DESIGN CHOICE, log entry 47). -/
def Dev.followPorts (old new : ParamSet) (d : Dev) : List Nat → Dev
  | [] => d
  | p :: t =>
    let d :=
      match old.inUse p, new.inUse p with
      | false, true => d.putPort p (d.port p).enterUse
      | true, false => d.putPort p (d.port p).leaveUse
      | _, _ => d
    Dev.followPorts old new d t

/-- The ports' states when the scan has ended and the set in force is known (R2). -/
def startPorts (p : ParamSet) : Vector PortRecord 18 :=
  Vector.ofFn fun i => if p.inUse i.val then PortRecord.start.enterUse else PortRecord.start

/-- A port's report (R20). The cell value is the one the last sample formed from this port; a port that came into use since then
has none (log entry 48). -/
def Dev.cellReport (d : Dev) (p : Nat) : CellReport :=
  let r := d.port p
  let set := d.inForce
  let position := set.positionOf p
  let last := d.lastSample
  let sender := set.requiredList.find? fun i => (set.at i).map == some p
  { port := p, state := r.state, position := position, required := sender.isSome,
    latest := r.latest, fails := r.fails, goods := r.goods, checkErrors := r.checkErrors,
    value := if sender.isSome then (last.cellValues.find? fun c => c.port == some p).map (·.value) else none,
    invalid := last.invalid, range := last.range, stable := last.stable }

/-- The summary of all ports (R21). A required position sent to ABSENT has no port; the model lists it among those whose port is not
OK, with no port and the state ABSENT (DESIGN CHOICE, log entry 49). -/
def Dev.cellSummary (d : Dev) : CellSummary :=
  let states := d.cells.toList.map (·.state)
  let set := d.inForce
  { states := states, absent := states.count .absent, ok := states.count .ok, suspect := states.count .suspect,
    fault := states.count .fault,
    notOk := set.requiredList.filterMap fun i =>
      match (set.at i).map with
      | none => some (i, none, .absent)
      | some p => if (d.port p).state = .ok then none else some (i, some p, (d.port p).state),
    deckSums := d.lastSample.deckSums }

/-- The code of CELL READ (A.3). -/
def codeCellRead : Byte := 0x6F#8

/-- CELL READ (R20, R21): ports 0 to 17 give a record, 255 the summary, others are RANGE. -/
def Dev.cellRead (d : Dev) (tag port : Byte) : Dev :=
  d.dispatch .service codeCellRead tag true (decide (port.toNat ≤ 17) || port == 0xFF#8) fun d =>
    if port = 0xFF#8 then d.finish .service .ok (.cells d.cellSummary)
    else d.finish .service .ok (.cell (d.cellReport port.toNat))

/-- SAMPLE_FRAME. -/
def execSampleFrame (port : Fin 18) (bytes : List Byte) (s : State) : Host.Outcome State Fault Refusal :=
  .next { s with dev := s.dev.sampleFrame port.val bytes }

/-- CELL READ naming a port. -/
def execCellRead (tag port : Byte) (s : State) : Host.Outcome State Fault Refusal :=
  .next { s with dev := s.dev.cellRead tag port }

/-- CELL READ naming port 255. -/
def execCellReadSummary (tag : Byte) (s : State) : Host.Outcome State Fault Refusal :=
  .next { s with dev := s.dev.cellRead tag 0xFF#8 }

end Sys2Proof.Machine
end

