-- ==== Sys2Proof/Machine/Weighing.lean ====
section
/-! DEFINITION. The weighing unit (chapter 1 and section 2.3): the computation of a bridge sample, its histories, the
operational zero with its rebasing, ZERO and zero tracking. -/

namespace Sys2Proof.Machine

/-! ## The computation (R12 to R18) -/

/-- The ports in use, in port order. -/
def ParamSet.portsInUse (p : ParamSet) : List Nat := (List.range 18).filter p.inUse

/-- No reason to be INVALID. -/
def Invalid.none : Invalid := ⟨false, false, false, false⟩

/-- Both samples' reasons. -/
def Invalid.or (a b : Invalid) : Invalid :=
  ⟨a.cellFault || b.cellFault, a.noValue || b.noValue, a.unset || b.unset, a.unmapped || b.unmapped⟩

/-- The cell value of a raw count, by the three steps of R12. -/
def cellArithmetic (raw offset : Int) (gain corner : Nat) : Int :=
  roundDiv (roundDiv ((raw - offset) * gain) 16777216 * corner) 65536

/-- The latest value of the port a position is sent to. -/
def Dev.latestOf (d : Dev) (p : PosParam) : Option Latest := p.map.bind fun port => (d.port port).latest

/-- A position's cell value, 0 where it cannot be computed (R12). -/
def Dev.cellValue (d : Dev) (p : PosParam) : Int :=
  match p.offset, p.gain, p.corner, d.latestOf p with
  | some o, some g, some k, some l => cellArithmetic l.count o g k
  | _, _, _, _ => 0

/-- The reasons a position's cell value cannot be computed: each of R12's that applies (R12, R158; log entry 18). -/
def Dev.cellReasons (d : Dev) (p : PosParam) : Invalid :=
  { cellFault := false, unmapped := p.map.isNone, unset := p.offset.isNone || p.gain.isNone || p.corner.isNone,
    noValue := p.map.isSome && (d.latestOf p).isNone }

/-- Whether a zero capture cannot take a position: sent to ABSENT, its port in FAULT, or no latest value (R159, R160). -/
def Dev.positionFaulty (d : Dev) (p : PosParam) : Bool :=
  match p.map with
  | none => true
  | some port => (d.port port).state == .fault || (d.port port).latest.isNone

/-- The cell values of the required positions. -/
def Dev.cellValues (d : Dev) (set : ParamSet) : List CellValue :=
  set.requiredList.map fun i => ⟨i, (set.at i).map, d.cellValue (set.at i), d.positionFaulty (set.at i)⟩

/-- The reasons of a sample (R12): those of its required positions, CELL_FAULT where a port in use is in FAULT, and UNMAPPED where
no required position is mapped. -/
def Dev.sampleReasons (d : Dev) (set : ParamSet) : Invalid :=
  (set.requiredList.map fun i => d.cellReasons (set.at i)).foldl Invalid.or
    { Invalid.none with
      cellFault := set.portsInUse.any fun p => (d.port p).state == .fault,
      unmapped := set.requiredList.all fun i => (set.at i).map.isNone }

/-- The deck sums, decks 1 to D (R13). -/
def deckSums (decks : Nat) (values : List CellValue) : List Int :=
  (List.range decks).map fun deck => sumInt ((values.filter fun v => v.pos / 4 == deck).map (·.value))

/-- The range state (R18). -/
def rangeState (set : ParamSet) (saturated : Bool) (filtered : Int) : RangeState :=
  if saturated ∨ filtered > 10 * ((set.max : Int) + 9 * set.e.kg) then .over
  else if filtered < -200 * (set.e.kg : Int) then .under
  else .within

/-- The indicated weight (R17). -/
def indicatedWeight (e : Interval) (filtered : Int) : Int := roundTo filtered (10 * e.kg)

/-- The expanded indication (R17). -/
def expandedIndication (e : Interval) (filtered : Int) : Int := roundTo filtered e.kg

/-- Stability at a sample: at least S values taken, and the last S within one e (R16). -/
def stableAt (set : ParamSet) (samples : Nat) (hist : List Int) : Bool :=
  decide (set.stability ≤ samples) && decide (spanInt (lastOf set.stability hist) ≤ 10 * set.e.kg)

/-- The emptying of R10, where it is due at this sample. -/
def Weighing.emptied (w : Weighing) : Weighing :=
  if w.emptyDue then { w with filterHist := [], stabHist := [], baseline := [], samples := 0, emptyDue := false } else w

/-- The sample's result with the histories it has entered: R12 to R18 with the set in force and Z_op as it stands (R11). -/
def Dev.computeSample (d : Dev) : Dev :=
  let set := d.inForce
  let w := d.weighing.emptied
  let values := d.cellValues set
  let sums := deckSums set.decks values
  let raw := sumInt sums
  let gross := raw - w.zOp
  let filterHist := pushLast 32 w.filterHist gross
  let filtered := meanInt (lastOf set.window.size filterHist)
  let stabHist := pushLast 200 w.stabHist filtered
  let samples := satInc 65535 w.samples
  let saturated := set.portsInUse.any fun p => (d.port p).latest.any (·.saturated)
  let range := rangeState set saturated filtered
  let within := range == .within
  let result : SampleResult :=
    { cellValues := values, deckSums := sums, rawTotal := raw, gross := gross, filtered := filtered,
      stable := stableAt set samples stabHist, range := range,
      indicated := if within then some (indicatedWeight set.e filtered) else none,
      expanded := if within then some (expandedIndication set.e filtered) else none,
      invalid := d.sampleReasons set, saturated := saturated }
  { d with weighing :=
      { w with filterHist := filterHist, stabHist := stabHist, baseline := pushLast 32 w.baseline gross,
               samples := samples, last := result } }

/-- What a sample hands the metrology unit for each required position (R22). -/
def Dev.handOffs (d : Dev) : List HandOff :=
  let set := d.inForce
  set.requiredList.map fun i =>
    match (set.at i).map with
    | none => ⟨i, none, false, .absent⟩
    | some p => ⟨i, (d.port p).latest.map (·.count), !(d.port p).fresh, (d.port p).state⟩

/-! ## The operational zero (R14, R33 to R35) -/

/-- A change of Z_op with the rebasing of R14. The last sample's unfiltered gross stands as it was formed; no rule says whether it is
shifted (DESIGN CHOICE, log entry 62). Its indicated weight, expanded indication and range state stand as they were formed too, until
the next sample; R14 and R44 do not say whether they follow the filtered gross (DESIGN CHOICE, log entry 67). -/
def Weighing.rebase (w : Weighing) (z : Int) : Weighing :=
  let shift := z - w.zOp
  { w with
    zOp := z, filterHist := w.filterHist.map (· - shift), stabHist := w.stabHist.map (· - shift),
    baseline := w.baseline.map (· - shift),
    last := { w.last with filtered := w.last.filtered - shift } }

/-- The shift of an OPEN CHECKED pass at a change of Z_op (R58). -/
def Pass.shift (p : Pass) (shift : Int) : Pass :=
  if p.state = .opened ∧ p.kind = .checked then
    { p with
      m0 := p.m0.map (· - shift),
      axles := p.axles.map fun a =>
        { a with window := a.window.map fun w =>
            { w with sum := w.sum - shift * w.count, mean := w.mean.map (· - shift) } } }
  else p

/-- The axle unit's shift at a change of Z_op from one value to another (R58). -/
def AxleUnit.shift (a : AxleUnit) (shift : Int) : AxleUnit := { a with pass := a.pass.map fun p => p.shift shift }

/-- A change of Z_op: the histories are rebased and an OPEN CHECKED pass is shifted (R14, R58). -/
def Dev.changeZero (d : Dev) (z : Int) : Dev :=
  { d with weighing := d.weighing.rebase z, axle := d.axle.shift (z - d.weighing.zOp) }

/-- The tracking count at a sample (R35), with the bridge state as the sample finds it. -/
def Dev.trackingSample (d : Dev) : Dev :=
  let r := d.lastSample
  let set := d.inForce
  let holds :=
    set.tracking && !d.calActive && !d.inSession && d.bridge.state == .empty && r.stable && !r.invalid.any
      && decide ((r.filtered.natAbs : Int) ≤ 5 * set.e.kg)
  { d with weighing := { d.weighing with tracking := if holds then satInc 100 d.weighing.tracking else 0 } }

/-- ZERO_TRACKING (R35): at a count of 100, Z_op moves by the filtered gross within the zero limit, and the count is 0. R35 tests the
bridge state at the bridge sample; where a command between that sample and this one has taken the bridge from EMPTY, the model still
moves Z_op (DESIGN CHOICE, log entry 84). -/
def Dev.zeroTracking (d : Dev) : Dev :=
  if d.active ∧ d.weighing.tracking = 100 ∧ !d.calActive ∧ !d.inSession then
    let z := clampTo d.metro.current.zeroLimit (d.weighing.zOp + d.lastSample.filtered)
    let d := if z = d.weighing.zOp then d else d.changeZero z
    { d with weighing := { d.weighing with tracking := 0 } }
  else d

/-- The refusals of ZERO, in the order of R34. -/
def Dev.zeroRefusal (d : Dev) : Option Status :=
  let r := d.lastSample
  if d.calActive then some .calMode
  else if d.inSession then some .audit
  else if d.bridge.state ≠ .empty then some .notEmpty
  else if r.invalid.any then some .cellFault
  else if r.range = .over then some .overRange
  else if !r.stable then some .unstable
  else if d.metro.current.zeroLimit < (d.weighing.zOp + r.filtered).natAbs then some .zeroRange
  else none

/-- The code of ZERO (A.3). -/
def codeZero : Byte := 0x09#8

/-- ZERO (R34). -/
def Dev.zero (d : Dev) (tag : Byte) : Dev :=
  d.dispatch .console codeZero tag true true fun d =>
    match d.zeroRefusal with
    | some status => d.finish .console status .none
    | none =>
      let z := d.weighing.zOp + d.lastSample.filtered
      let d := d.changeZero z
      ({ d with weighing := { d.weighing with tracking := 0 } } : Dev).finish .console .ok (.zOp z)

/-- ZERO_TRACKING. -/
def execZeroTracking (s : State) : Host.Outcome State Fault Refusal := .next { s with dev := s.dev.zeroTracking }

/-- ZERO. -/
def execZero (tag : Byte) (s : State) : Host.Outcome State Fault Refusal := .next { s with dev := s.dev.zero tag }

end Sys2Proof.Machine
end

