-- ==== Sys2Proof/Machine/Passes.lean ====
section
/-! DEFINITION. The axle pass (chapter 3): its after-windows, the axles its crossings add, reversals, axle loads, and its
closing. What an ending does to the bridge stands in Bridge.lean. -/

namespace Sys2Proof.Machine

/-! ## After-windows (R55, R56) -/

/-- A window just begun (R54). -/
def Window.fresh : Window := ⟨0, 0, 0, .running, none⟩

/-- A bridge sample taken by a RUNNING window (R55). A window that has taken its fifty samples takes no more. -/
def Window.sample (w : Window) (gross : Int) : Window :=
  if w.state = .running ∧ w.progress < 50 then
    if 20 ≤ w.progress then { w with progress := w.progress + 1, sum := w.sum + gross, count := w.count + 1 }
    else { w with progress := w.progress + 1 }
  else w

/-- The window end after the sample taken at progress 49 (R55). -/
def Window.finish (w : Window) : Window :=
  if w.state = .running ∧ 50 ≤ w.progress then
    { w with state := .complete, mean := some (roundDiv w.sum w.count) }
  else w

/-- A RUNNING window cut: M where it holds at least 8 samples (R56). A window whose fifty samples are taken is complete. -/
def Window.cut (w : Window) : Window :=
  let w := w.finish
  if w.state = .running then
    { w with state := .cut, mean := if 8 ≤ w.count then some (roundDiv w.sum w.count) else none }
  else w

/-- The last axle's window at a directed close: it takes an M however few samples it holds (R61). -/
def Window.cutLast (w : Window) (lastGross : Int) : Window :=
  let w := w.finish
  if w.state = .running then
    if w.count = 0 then { w with state := .cut, sum := lastGross, count := 1, mean := some lastGross }
    else { w with state := .cut, mean := some (roundDiv w.sum w.count) }
  else w

/-- An axle's M. -/
def AxleRecord.mean (a : AxleRecord) : Option Int := a.window.bind (·.mean)

/-- A change of an axle's window. -/
def AxleRecord.mapWindow (f : Window → Window) (a : AxleRecord) : AxleRecord := { a with window := a.window.map f }

/-- A change of the last element of a list. -/
def mapLast {α : Type} (f : α → α) : List α → List α
  | [] => []
  | [x] => [f x]
  | x :: t => x :: mapLast f t

/-! ## Speed and spacing (R50, R51) -/

/-- The speed of a crossing with both times, for a sensor spacing in mm; none where the interval is zero (R49, R50). -/
def crossingSpeed (spacing a b : Nat) : Option Nat :=
  if a < b then some (roundDiv ((1000 * spacing : Nat) : Int) (b - a)).toNat else none

/-- The speed limit in mm/s for a setting in km/h: times 1,000, divided by 3.6 and rounded (R50). -/
def speedLimitMm (kmh : Nat) : Nat := (roundDiv ((kmh * 10000 : Nat) : Int) 36).toNat

/-- The spacing of an axle from the axle before it (R51). -/
def axleSpacing (prev : AxleRecord) (speed aTime bTime : Option Nat) : Option Int :=
  match speed with
  | none => none
  | some v =>
    match prev.bTime, bTime with
    | some b1, some b2 => some (roundDiv ((v : Int) * ((b2 : Int) - b1)) 1000)
    | _, _ =>
      match prev.aTime, aTime with
      | some a1, some a2 => some (roundDiv ((v : Int) * ((a2 : Int) - a1)) 1000)
      | _, _ => none

/-! ## The pass (R52 to R57) -/

/-- A pass is in the state OPEN. -/
def Pass.isOpen (p : Pass) : Bool := p.state == .opened

/-- No mark. -/
def PassMarks.clear : PassMarks := ⟨false, false, false, false, false, false⟩

/-- A pass as it is opened (R52). -/
def Pass.begin (kind : PassKind) (entryEnd : EntryEnd) (followOn calMode : Bool) (time : Nat) (baseline : List Int) : Pass :=
  { openedAt := time, state := .opened, kind := kind, entryEnd := entryEnd,
    marks := { PassMarks.clear with followOn := followOn, calMode := calMode },
    m0 := if kind = .checked then some (meanInt baseline) else none,
    axles := [], gap := 0, samples := 0, reason := none, eAtClose := none, loadSum := none, summary := none }

/-- The crossing sample of a crossing formed now: the next sample, counted from the opening (section 3.4). -/
def Pass.nextSample (p : Pass) : Nat := satInc 65535 p.samples

/-- The most axles a pass holds (section 3.4). -/
def maxAxles : Nat := 24

/-- A crossing added as an axle (R54): a CHECKED pass cuts the axle before, takes speed and spacing, marks OVERSPEED and
begins a window; an UNCHECKED pass takes the crossing sample and the times. -/
def Pass.addAxle (p : Pass) (c : Crossing) (limit : Nat) : Pass :=
  let bare : AxleRecord :=
    { crossingSample := p.nextSample, aTime := c.aTime, bTime := c.bTime, xTime := c.xTime, speed := none, spacing := none,
      window := none, load := none, reported := none, merged := false, overspeed := false }
  match p.kind with
  | .unchecked => { p with axles := p.axles ++ [bare] }
  | .checked =>
    let tooFast := match c.speed with | some v => decide (limit < v) | none => false
    let spacing := p.axles.getLast?.bind fun prev => axleSpacing prev c.speed c.aTime c.bTime
    { p with
      axles := mapLast (·.mapWindow Window.cut) p.axles
        ++ [{ bare with speed := c.speed, spacing := spacing, window := some Window.fresh, overspeed := tooFast }],
      marks := { p.marks with overspeed := p.marks.overspeed || tooFast } }

/-- A reversal (R57): the last axle is removed and a window that its crossing had cut begins afresh. -/
def Pass.reverse (p : Pass) : Pass :=
  { p with
    marks := { p.marks with reversed := true },
    axles := mapLast (·.mapWindow fun w => if w.state = .cut then Window.fresh else w) p.axles.dropLast }

/-- What a crossing does to an OPEN pass: the pass, and whether it must be aborted TOO_MANY_AXLES (R53). -/
def Pass.cross (p : Pass) (c : Crossing) (limit : Nat) : Pass × Bool :=
  let p := { p with gap := 0 }
  let adds :=
    match c.kind, p.entryEnd with
    | .forward, .pair => true
    | .exit, .x => true
    | _, _ => false
  if adds then
    if p.axles.length < maxAxles then (p.addAxle c limit, false) else (p, true)
  else
    match c.kind, p.entryEnd with
    | .backward, .pair => (p.reverse, false)
    | _, _ => (p, false)

/-- A bridge sample taken by an OPEN pass: its windows, its CELL_FAULT mark, its sample count and its gap count (R55, R60). -/
def Pass.sample (p : Pass) (gross : Int) (invalid : Bool) : Pass :=
  { p with
    axles := p.axles.map (·.mapWindow (·.sample gross)),
    marks := { p.marks with cellFault := p.marks.cellFault || invalid },
    samples := satInc 65535 p.samples, gap := satInc 1000 p.gap }

/-! ## Loads and closing (R59 to R61) -/

/-- The axles of a merge run with their shares: each of the first k − 1 takes the step divided by k, truncated toward zero,
the last takes the rest (R59). -/
def shareRun (run : List AxleRecord) (last : AxleRecord) (step : Int) : List AxleRecord :=
  match run with
  | [] => [{ last with load := some step }]
  | _ =>
    let share := step.tdiv (run.length + 1)
    run.map (fun a => { a with load := some share, merged := true })
      ++ [{ last with load := some (step - share * run.length), merged := true }]

/-- The axles with their loads, from the M standing before them and a run begun (R59). -/
def formLoads : Int → List AxleRecord → List AxleRecord → List AxleRecord
  | _, run, [] => run
  | before, run, a :: t =>
    match a.mean with
    | none => formLoads before (run ++ [a]) t
    | some m => shareRun run a (m - before) ++ formLoads m [] t

/-- A pass closed NORMAL: a CHECKED pass takes its loads, the e at close, the sum and its summary (R59, R60, R67). An UNCHECKED
pass has no e at close: section 3.4 gives it at a NORMAL close, R60 for a CHECKED pass (DESIGN CHOICE, log entry 61). -/
def Pass.close (p : Pass) (e : Interval) (t : SiteSettings) (generation : Nat) : Pass :=
  let p := { p with state := .closed, reason := some .normal }
  match p.kind with
  | .unchecked => p
  | .checked =>
    let axles := (formLoads (p.m0.getD 0) [] p.axles).map fun (a : AxleRecord) =>
      { a with reported := a.load.map (reportedLoad e) }
    let p := { p with axles := axles, eAtClose := some e, loadSum := some (sumInt (axles.map fun (a : AxleRecord) => a.load.getD 0)) }
    { p with summary := some (formSummary p e t generation) }

/-- The gap and window conditions of a NORMAL close at a sample (R60). -/
def Pass.mayClose (p : Pass) (gapLimit : Nat) : Bool :=
  p.isOpen && decide (gapLimit ≤ p.gap)
    && (p.kind == .unchecked || (match p.axles.getLast? with
      | none => true
      | some a => match a.window with | some w => w.state == .complete | none => true))

/-! ## Reading a pass (R65, R66) -/

/-- An axle as PASS READ gives it, its times in milliseconds after the opening (R65). R65 names no value for a time before the
opening, of a sensor A detection queued in STANDING; the model gives a negative number (DESIGN CHOICE, log entry 60). -/
def Pass.axleReport (p : Pass) (number : Nat) (a : AxleRecord) : AxleReport :=
  let after := fun (t : Option Nat) => t.map fun v => (v : Int) - p.openedAt
  { number := number, crossingSample := a.crossingSample, aTime := after a.aTime, bTime := after a.bTime,
    xTime := after a.xTime, speed := a.speed, spacing := a.spacing, windowEnd := a.window.map (·.state),
    windowCount := a.window.map (·.count), mean := a.mean, load := a.load, reported := a.reported, merged := a.merged,
    overspeed := a.overspeed }

/-- Up to four axle records from the axle wanted onward; none for a first axle of 0 or above the axle count (R65). -/
def Pass.reportFrom (p : Pass) (first : Nat) : List AxleReport :=
  if first = 0 then []
  else ((p.axles.zipIdx 1).map fun x => p.axleReport x.2 x.1).drop (first - 1) |>.take 4

/-- The pass header (R65). -/
def Pass.header (p : Pass) : PassHeader :=
  { openedAt := p.openedAt, state := p.state, kind := p.kind, entryEnd := p.entryEnd, marks := p.marks, m0 := p.m0,
    axles := p.axles.length, gap := p.gap, reason := p.reason, eAtClose := p.eAtClose, loadSum := p.loadSum }

/-- The pass fields of BRIDGE READ (R66). -/
def Pass.brief (p : Pass) : PassBrief := ⟨p.kind, p.marks, p.state, p.axles.length⟩

end Sys2Proof.Machine
end

