-- ==== Sys2Proof/Machine/Bridge.lean ====
section
/-! DEFINITION. The bridge monitor (chapter 2) with the axle unit's detections and crossings (sections 3.1, 3.2, 3.7): the
bridge state and its transitions, the axles-on count, the end beams, the end of a WEIGH request, and the lane commands
BRIDGE READ, BRIDGE RELEASE and PASS READ. -/

namespace Sys2Proof.Machine

/-! ## The bridge state -/

/-- A change of the bridge state, raising BRIDGE_STATE with the count as it stands (R31). -/
def Dev.changeBridge (d : Dev) (s : BridgeState) : Dev :=
  if d.bridge.state = s then d
  else ({ d with bridge := { d.bridge with state := s } } : Dev).raise .lane (.bridgeState s d.bridge.count)

/-- A change of the bridge monitor's record. -/
def Dev.onBridge (d : Dev) (f : Bridge → Bridge) : Dev := { d with bridge := f d.bridge }

/-- The current pass replaced. -/
def Dev.setPass (d : Dev) (p : Option Pass) : Dev := { d with axle := { d.axle with pass := p } }

/-- The current pass where it is OPEN. -/
def Dev.openPass? (d : Dev) : Option Pass := d.axle.pass.filter (·.isOpen)

/-- A mark set on the pass where it is OPEN. -/
def Dev.markOpen (d : Dev) (f : PassMarks → PassMarks) : Dev :=
  match d.openPass? with
  | some p => d.setPass (some { p with marks := f p.marks })
  | none => d

/-! ## Endings of a pass (R60 to R63) -/

/-- The report of a close or an abort: ENTERING goes to STANDING, and PASS_CLOSED is raised (R28, R62). -/
def Dev.reportEnding (d : Dev) (p : Pass) (reason : CloseReason) : Dev :=
  (if d.bridge.state = .entering then d.changeBridge .standing else d).raise .lane
    (.passClosed p.openedAt p.kind reason p.axles.length p.marks)

/-- A pass closed NORMAL, with its loads and summary, and its ending reported (R60, R62, R67). The e at close is that of
the set in force as it now stands, also where the set has changed since the last sample (DESIGN CHOICE, log entry 71). -/
def Dev.closePass (d : Dev) (p : Pass) : Dev :=
  let p := p.close d.inForce.e d.metro.site d.metro.generation
  (d.setPass (some p)).reportEnding p .normal

/-- An OPEN pass aborted: its windows stop, no loads are formed, and its ending is reported (R63). -/
def Dev.abortPass (d : Dev) (reason : CloseReason) : Dev :=
  match d.openPass? with
  | none => d
  | some p =>
    let p := { p with state := .aborted, reason := some reason }
    (d.setPass (some p)).reportEnding p reason

/-- The pass the bridge monitor directs to close (R61). A last window without samples takes the last sample's unfiltered gross as
that sample formed it, also after a commit's change of Z_op (DESIGN CHOICE, log entry 62). -/
def Dev.closeDirected (d : Dev) : Dev :=
  match d.openPass? with
  | none => d
  | some p =>
    let gross := d.lastSample.gross
    d.closePass { p with axles := mapLast (·.mapWindow fun w => w.cutLast gross) p.axles }

/-- A pass opened at the bridge monitor's direction; an earlier pass is discarded (R52). -/
def Dev.openPass (d : Dev) (kind : PassKind) (entryEnd : EntryEnd) (followOn : Bool) (time : Nat) : Dev :=
  (d.onBridge fun b => { b with entryEnd := entryEnd }).setPass
    (some (Pass.begin kind entryEnd followOn d.calActive time d.weighing.baseline))

/-! ## The request in flight -/

/-- The end of a request in WAITING: its response, and the bridge at a state (R39, R40). -/
def Dev.endWaiting (d : Dev) (status : Status) : Dev :=
  ((d.answerHandedOff .lane status .none).onBridge fun b => { b with request := none }).changeBridge .standing

/-! ## Crossings (R26 to R30, R40, R49) -/

/-- The adjustment of the axles-on count and whether the crossing is a leaving crossing, by the table of R26. -/
def crossingClass (kind : CrossingKind) (entryEnd : EntryEnd) (passOpen followOn : Bool) : Int × Bool :=
  match kind, entryEnd with
  | .forward, _ => (1, false)
  | .backward, .pair => (-1, false)
  | .backward, .x => (-1, true)
  | .exit, .pair => (-1, !(passOpen && followOn))
  | .exit, .x => if passOpen then (1, false) else (-1, true)

/-- The count adjusted, holding at ±255; an UNKNOWN count is not adjusted (R26). -/
def adjustCount (count : Option Int) (by' : Int) : Option Int := count.map fun c => max (-255) (min 255 (c + by'))

/-- What a crossing does in STANDING (R29). -/
def Dev.crossStanding (d : Dev) (delta : Int) (leaving : Bool) : Dev :=
  let d := d.onBridge fun b => { b with count := adjustCount b.count delta }
  if leaving then d.changeBridge .leaving else d

/-- A crossing handed to the bridge monitor: the count, the class, and what the state it finds makes of it. -/
def Dev.bridgeCrossing (d : Dev) (kind : CrossingKind) : Dev :=
  let pass := d.openPass?
  let (delta, leaving) := crossingClass kind d.bridge.entryEnd pass.isSome (pass.any (·.marks.followOn))
  match d.bridge.state with
  | .start => d
  | .empty => d
  | .entering =>
    let d := d.onBridge fun b => { b with count := adjustCount b.count delta }
    if leaving then (d.changeBridge .leaving).closeDirected else d
  | .standing => d.crossStanding delta leaving
  | .waiting => (d.endWaiting .moved).crossStanding delta leaving
  | .recording =>
    d.onBridge fun b => { b with count := adjustCount b.count delta, leavingSeen := b.leavingSeen || leaving }
  | .leaving => d.onBridge fun b => { b with count := adjustCount b.count delta }

/-- A crossing applied to the current pass where it is OPEN (R49, R53). -/
def Dev.applyCrossing (d : Dev) (c : Crossing) : Dev :=
  match d.openPass? with
  | none => d
  | some p =>
    let (p, tooMany) := p.cross c (speedLimitMm d.metro.site.speedLimit)
    let d := d.setPass (some p)
    if tooMany then d.abortPass .tooManyAxles else d

/-- A crossing taken: applied to the pass, it ends a waiting audit point, and it is handed to the bridge monitor (R49, R174). -/
def Dev.takeCrossing (d : Dev) (c : Crossing) : Dev := ((d.applyCrossing c).endPoint .moved).bridgeCrossing c.kind

/-- A FORWARD crossing of a pair of detections: its speed, or a crossing without speed and SENSOR_FAULT where the interval
is zero (R49, R50). -/
def Dev.takeForward (d : Dev) (a b : Nat) : Dev :=
  match crossingSpeed d.metro.site.sensorSpacing a b with
  | some v => d.takeCrossing ⟨.forward, some a, some b, none, some v⟩
  | none =>
    (d.markOpen fun m => { m with sensorFault := true }).takeCrossing ⟨.forward, some a, none, none, none⟩

/-! ## The detection queue (R45 to R48) -/

/-- The queue replaced. -/
def Dev.setQueue (d : Dev) (q : List Detection) : Dev := { d with axle := { d.axle with queue := q } }

/-- The pairing timeout, in ms (R48). -/
def pairingTimeout : Nat := 3000

/-- The detections in the queue at most (R46). -/
def maxDetections : Nat := 8

/-- The head of the queue resolved until it waits or the queue is empty (R47); each crossing is dealt with before the next is
formed. The number bounds the crossings a queue can form. -/
def Dev.resolve : Nat → Dev → Dev
  | 0, d => d
  | n + 1, d =>
    match d.axle.queue with
    | [] => d
    | h :: t =>
      match h.sensor with
      | .X => ((d.setQueue t).takeCrossing ⟨.exit, none, none, some h.time, none⟩).resolve n
      | .A =>
        match takeFirst (fun x => x.sensor == .B) t with
        | some (b, rest) => ((d.setQueue rest).takeForward h.time b.time).resolve n
        | none => d
      | .B =>
        match takeFirst (fun x => x.sensor == .A && decide (x.time ≤ h.time + pairingTimeout)) t with
        | some (a, rest) =>
          ((d.setQueue rest).takeCrossing ⟨.backward, some a.time, some h.time, none, none⟩).resolve n
        | none => d

/-- The queue resolved as far as it goes. -/
def Dev.resolveAll (d : Dev) : Dev := d.resolve (d.axle.queue.length + 1)

/-- The bridge monitor's direction at a detection handed on as it arrives (R27, R30). -/
def Dev.directDetection (d : Dev) (sensor : Sensor) (time : Nat) : Dev :=
  match d.bridge.state, sensor with
  | .empty, .A => (d.openPass .checked .pair false time).changeBridge .entering
  | .empty, .X => ((d.openPass .unchecked .x false time).changeBridge .entering).raise .lane .wrongWay
  | .leaving, .A => (d.openPass .unchecked .pair true time).changeBridge .entering
  | _, _ => d

/-- The millisecond counter brought to a reading; it never runs backward and holds at its maximum (section 3.1). -/
def Dev.advanceMs (d : Dev) (ms : Nat) : Dev :=
  { d with axle := { d.axle with ms := min (max d.axle.ms ms) 281474976710655 } }

/-- DETECTION (R45, R46): it ends a zero capture MOVED; at a full queue it is lost and an OPEN pass is aborted; otherwise it
is stamped, handed on, queued and resolved. R46 lets a detection lost with no OPEN pass change no other state, and R160 ends the
capture when a detection arrives; in the model the lost one ends it too (DESIGN CHOICE, log entry 59). -/
def Dev.detection (d : Dev) (sensor : Sensor) (ms : Nat) : Dev :=
  if !d.active then d
  else
    let d := (d.endZeroCapture .moved).advanceMs ms
    if maxDetections ≤ d.axle.queue.length then d.abortPass .detectionOverrun
    else
      let time := d.axle.ms
      let d := d.directDetection sensor time
      (d.setQueue (d.axle.queue ++ [⟨sensor, time⟩])).resolveAll

/-- PAIRING_TIMEOUT (R48): the counter has reached the head's time plus 3,000; an A becomes a crossing without speed, a B is
discarded, an OPEN pass is marked SENSOR_FAULT, and the queue is resolved again. -/
def Dev.pairingExpiry (d : Dev) : Dev :=
  if !d.active then d
  else
    match d.axle.queue with
    | [] => d
    | h :: t =>
      let d := ((d.advanceMs (h.time + pairingTimeout)).setQueue t).markOpen fun m => { m with sensorFault := true }
      match h.sensor with
      | .A => (d.takeCrossing ⟨.forward, some h.time, none, none, none⟩).resolveAll
      | .B => d.resolveAll
      | .X => (d.takeCrossing ⟨.exit, none, none, some h.time, none⟩).resolveAll

/-! ## The pass over bridge samples (R55, R60) -/

/-- AFTER_WINDOW_COMPLETE (R55): the windows that have taken their fifty samples become COMPLETE with their M. -/
def Dev.completeWindows (d : Dev) : Dev :=
  if !d.active then d
  else
    match d.openPass? with
    | none => d
    | some p => d.setPass (some { p with axles := p.axles.map (·.mapWindow Window.finish) })

/-- PASS_GAP_TIMEOUT (R60): the OPEN pass closes NORMAL where its gap count has reached the gap timeout and its last window is
COMPLETE or its list empty. -/
def Dev.gapTimeout (d : Dev) : Dev :=
  if !d.active then d
  else
    let done := d.completeWindows
    match done.openPass? with
    | none => d
    | some p => if p.mayClose (100 * d.metro.site.gapTimeout) then done.closePass p else d

/-! ## The bridge state over samples (R25, R27, R29, R30) -/

/-- A stable sample at or above the empty threshold finds a load that came unseen: STANDING with no pass (R25, R27, R63). -/
def Dev.standUnseen (d : Dev) (mismatch : Bool) : Dev :=
  let d := ((d.setPass none).onBridge fun b => { b with count := none, entryEnd := .pair }).changeBridge .standing
  if mismatch then d.raise .lane (.sensorMismatch none) else d

/-- A stable sample below the empty threshold empties the bridge; a count other than 0 is reported (R29, R30). -/
def Dev.emptyBridge (d : Dev) : Dev :=
  let was := d.bridge.count
  let d := (d.onBridge fun b => { b with count := some 0 }).changeBridge .empty
  if was = some 0 then d else d.raise .lane (.sensorMismatch was)

/-- The transitions a bridge sample makes. -/
def Dev.sampleBridge (d : Dev) : Dev :=
  let r := d.lastSample
  if !r.stable then d
  else
    let below := decide (r.filtered < d.inForce.emptyThreshold)
    match d.bridge.state with
    | .start =>
      if below then (d.onBridge fun b => { b with count := some 0 }).changeBridge .empty else d.standUnseen false
    | .empty => if below then d else d.standUnseen true
    | .standing => if below then d.emptyBridge else d
    | .leaving => if below then d.emptyBridge else d
    | _ => d

/-- The axle unit's share of a bridge sample (R55, R60). -/
def Dev.samplePass (d : Dev) : Dev :=
  match d.openPass? with
  | none => d
  | some p => d.setPass (some (p.sample d.lastSample.gross d.lastSample.invalid.any))

/-! ## End beams (R32) -/

/-- END_BEAM_CHANGE: the input's new level; the monitor records it, sets the change mark and raises BEAM_CHANGE. -/
def Dev.beamChange (d : Dev) (beam : BeamEnd) (blocked : Bool) : Dev :=
  match beam with
  | .entry =>
    let d := { d with pins := { d.pins with entryBlocked := blocked } }
    if d.active && d.bridge.entryBeam.blocked != blocked then
      (d.onBridge fun b => { b with entryBeam := { b.entryBeam with blocked := blocked, changed := true } }).raise .lane
        (.beamChange .entry blocked)
    else d
  | .exit =>
    let d := { d with pins := { d.pins with exitBlocked := blocked } }
    if d.active && d.bridge.exitBeam.blocked != blocked then
      (d.onBridge fun b => { b with exitBeam := { b.exitBeam with blocked := blocked, changed := true } }).raise .lane
        (.beamChange .exit blocked)
    else d

/-! ## Release (R43, R63) -/

/-- A release applied: the bridge is EMPTY, the request ended, the pass aborted or discarded, the queue emptied; a release
that changes the state begins a fresh tracking run (R35, R43, R63). -/
def Dev.applyRelease (d : Dev) : Dev :=
  let was := d.bridge.state
  let d :=
    if was = .waiting then (d.answerHandedOff .lane .released .none).onBridge fun b => { b with request := none } else d
  let d := if d.openPass?.isSome then d.abortPass .released else d.setPass none
  let d := ((d.setQueue []).onBridge fun b =>
    { b with count := some 0, entryEnd := .pair, leavingSeen := false, heldRelease := false }).changeBridge .empty
  if was = .empty then d else { d with weighing := { d.weighing with tracking := 0 } }

/-- The code of BRIDGE RELEASE (A.3). -/
def codeBridgeRelease : Byte := 0x23#8

/-- BRIDGE RELEASE: held in RECORDING, otherwise applied and answered at once (R43). -/
def Dev.bridgeRelease (d : Dev) (tag : Byte) : Dev :=
  d.dispatch .lane codeBridgeRelease tag true true fun d =>
    if d.bridge.state = .recording then d.onBridge fun b => { b with heldRelease := true }
    else d.applyRelease.finish .lane .ok .none

/-! ## The end of a WEIGH (R39, R41) -/

/-- The report of a capture's outcome: the WEIGH response, the end of the visit's use, the bridge's return, and a held
release applied and answered (R41, R84). -/
def Dev.weighReport (d : Dev) (r : WeighResult) : Dev :=
  let body := match r.fields with | some f => .weigh f | none => .none
  let d := d.answerHandedOff .lane r.status body
  let d := { d with yard := d.yard.endUse }
  let next := if d.bridge.leavingSeen then .leaving else .standing
  let held := d.bridge.heldRelease
  let d := (d.onBridge fun b => { b with request := none, leavingSeen := false }).changeBridge next
  if held then d.applyRelease.finish .lane .ok .none else d

/-- The first condition of R38 unmet at the last sample, in the order of R39. -/
def Dev.unmet (d : Dev) : Status :=
  let r := d.lastSample
  if r.invalid.any then .cellFault
  else if r.range = .over then .overRange
  else if r.range = .under then .underRange
  else if r.filtered < d.inForce.emptyThreshold then .belowMin
  else if d.bridge.entryBeam.atSample || d.bridge.exitBeam.atSample then .position
  else .unstable

/-- WEIGH_WAIT_EXPIRY (R39): the wait count has reached the wait limit. -/
def Dev.waitExpiry (d : Dev) : Dev :=
  if d.active && d.bridge.state == .waiting then
    match d.bridge.request with
    | some r =>
      match r.waitLimit with
      | some limit => if limit ≤ r.waitCount then d.endWaiting d.unmet else d
      | none => d
    | none => d
  else d

/-! ## Reads (R44, R65) -/

/-- The role of a binding, where it has one. -/
def Binding.role : Binding → Option Role
  | .visit role _ _ => some role
  | .autoOpen => Option.none
  | .tare => some .tare

/-- What BRIDGE READ returns (R44). -/
def Dev.bridgeReport (d : Dev) : BridgeReport :=
  let r := d.lastSample
  let b := d.bridge
  { state := b.state, count := b.count, entryBlocked := b.entryBeam.blocked, entryChanged := b.entryBeam.changed,
    exitBlocked := b.exitBeam.blocked, exitChanged := b.exitBeam.changed, filtered := r.filtered, range := r.range,
    indicated := r.indicated, stable := r.stable, invalid := r.invalid, zOp := d.weighing.zOp,
    zeroLimit := d.metro.current.zeroLimit, pass := d.axle.pass.map (·.brief),
    request := b.request.map fun q => ⟨q.identity, q.purpose, q.binding.role, b.state == .recording, q.waitCount, q.waitLimit⟩,
    heldRelease := b.heldRelease }

/-- The code of BRIDGE READ (A.3). -/
def codeBridgeRead : Byte := 0x22#8

/-- BRIDGE READ: answered at once, and both change marks are cleared (R44). -/
def Dev.bridgeRead (d : Dev) (tag : Byte) : Dev :=
  d.dispatch .lane codeBridgeRead tag true true fun d =>
    (d.finish .lane .ok (.bridge d.bridgeReport)).onBridge fun b =>
      { b with entryBeam := { b.entryBeam with changed := false }, exitBeam := { b.exitBeam with changed := false } }

/-- The code of PASS READ (A.3). -/
def codePassRead : Byte := 0x24#8

/-- PASS READ: the header and up to four axles; a first axle above 24 is RANGE (R65). -/
def Dev.passRead (d : Dev) (tag first : Byte) : Dev :=
  d.dispatch .lane codePassRead tag true (decide (first.toNat ≤ maxAxles)) fun d =>
    match d.axle.pass with
    | none => d.finish .lane .ok .passIdle
    | some p => d.finish .lane .ok (.pass p.header (p.reportFrom first.toNat))

/-! ## The meanings -/

/-- DETECTION. -/
def execDetection (sensor : Sensor) (ms : Nat) (s : State) : Host.Outcome State Fault Refusal :=
  .next { s with dev := s.dev.detection sensor ms }

/-- PAIRING_TIMEOUT. -/
def execPairingTimeout (s : State) : Host.Outcome State Fault Refusal := .next { s with dev := s.dev.pairingExpiry }

/-- AFTER_WINDOW_COMPLETE. -/
def execAfterWindowComplete (s : State) : Host.Outcome State Fault Refusal := .next { s with dev := s.dev.completeWindows }

/-- PASS_GAP_TIMEOUT. -/
def execPassGapTimeout (s : State) : Host.Outcome State Fault Refusal := .next { s with dev := s.dev.gapTimeout }

/-- WEIGH_WAIT_EXPIRY. -/
def execWeighWaitExpiry (s : State) : Host.Outcome State Fault Refusal := .next { s with dev := s.dev.waitExpiry }

/-- END_BEAM_CHANGE. -/
def execEndBeamChange (beam : BeamEnd) (blocked : Bool) (s : State) : Host.Outcome State Fault Refusal :=
  .next { s with dev := s.dev.beamChange beam blocked }

/-- BRIDGE RELEASE. -/
def execBridgeRelease (tag : Byte) (s : State) : Host.Outcome State Fault Refusal :=
  .next { s with dev := s.dev.bridgeRelease tag }

/-- BRIDGE READ. -/
def execBridgeRead (tag : Byte) (s : State) : Host.Outcome State Fault Refusal :=
  .next { s with dev := s.dev.bridgeRead tag }

/-- PASS READ. -/
def execPassRead (tag first : Byte) (s : State) : Host.Outcome State Fault Refusal :=
  .next { s with dev := s.dev.passRead tag first }

end Sys2Proof.Machine
end

