-- ==== Sys2Proof/Machine/Operands.lean ====
section
/-! DEFINITION. The operand forms of link commands: identities, enumerated fields, numbers and signed values as the bytes
of a body carry them (A.1, A.3), with the ranges the link unit tests (R192). -/

namespace Sys2Proof.Machine

/-- The six-bit code of an ASCII character of an identity, where it is one (section 4.4, A.1). -/
def codeOfAscii (b : Byte) : Option Nat :=
  let n := b.toNat
  if 48 ≤ n ∧ n ≤ 57 then some (n - 47)
  else if 65 ≤ n ∧ n ≤ 90 then some (n - 54)
  else if n = 45 then some 37
  else none

/-- Every byte of a list as an identity character. -/
def codesOfAscii : List Byte → Option (List Nat)
  | [] => some []
  | b :: t =>
    match codeOfAscii b, codesOfAscii t with
    | some c, some cs => some (c :: cs)
    | _, _ => none

/-- A vehicle identity of 17 bytes: a length from 1 to 16, that many characters, and 0x00 in the unused bytes (A.1). -/
def identityOfBytes (bytes : List Byte) : Option Identity :=
  match bytes with
  | [] => none
  | len :: chars =>
    if 1 ≤ len.toNat ∧ len.toNat ≤ 16 ∧ chars.length = 16 ∧ (chars.drop len.toNat).all (fun b => b == 0#8) then
      codesOfAscii (chars.take len.toNat)
    else none

/-- A direction: RECEIVAL 1, OUTTURN 2. -/
def directionOfByte (b : Byte) : Option Direction :=
  if b = 1#8 then some .receival else if b = 2#8 then some .outturn else none

/-- A purpose: WEIGH_NEXT 1, TARE_RECORD 2 (A.1). -/
def purposeOfByte (b : Byte) : Option Purpose :=
  if b = 1#8 then some .weighNext else if b = 2#8 then some .tareRecord else none

/-- An audit point kind, from 1 in the order of section 10.1. -/
def pointKindOfByte (b : Byte) : Option PointKind :=
  if b = 1#8 then some .zero else if b = 2#8 then some .loadUp else if b = 3#8 then some .loadDown
  else if b = 4#8 then some .deck else if b = 5#8 then some .repeated else none

/-- A flag of 0 or 1. -/
def flagOfByte (b : Byte) : Option Bool := if b = 0#8 then some false else if b = 1#8 then some true else none

/-- A commodity field: 0 is none (A.1), 1 to 999 a code (section 4.4). -/
def commodityOfHalf (h : Half) : Option (Option Nat) :=
  if h.toNat = 0 then some none else if h.toNat ≤ 999 then some (some h.toNat) else none

/-- Whether a ticket or weighing number lies in 1 to 99,999,999 (section 4.4). -/
def numberInRange (w : Word) : Bool := decide (1 ≤ w.toNat) && decide (w.toNat ≤ 99999999)

/-- Whether a reference mass lies in 1 to 200,000 kg (R162, R163). -/
def massInRange (w : Word) : Bool := decide (1 ≤ w.toNat) && decide (w.toNat ≤ 200000)

/-- A position field of MAP SET: deck and corner 1 to 4, as the position's index. -/
def positionOfBytes (deck corner : Byte) : Option Nat :=
  if 1 ≤ deck.toNat ∧ deck.toNat ≤ 4 ∧ 1 ≤ corner.toNat ∧ corner.toNat ≤ 4 then
    some (4 * (deck.toNat - 1) + (corner.toNat - 1))
  else none

/-- A port field of MAP SET: 0 to 17, or 0xFF for ABSENT (A.3). -/
def portOfByte (b : Byte) : Option (Option Nat) :=
  if b.toNat ≤ 17 then some (some b.toNat) else if b = 0xFF#8 then some none else none

end Sys2Proof.Machine
end

