-- ==== Sys2Proof/Machine/Tickets.lean ====
section
/-! DEFINITION. The ticket unit (chapters 6 and 7): the stored-tare table and its judgment, the archive lookups, the trade
status of a ticket, the ticket queue, and the commands TARE READ, TARE DELETE, WEIGHING READ, RECORD READ, TICKET TAKE and
TICKET CLEAR. -/

namespace Sys2Proof.Machine

/-! ## The stored-tare table (section 6.1) -/

/-- The entry of an identity (R102). -/
def Tickets.findTare (t : Tickets) (id : Identity) : Option TareEntry := t.tares.find? fun e => e.identity == id

/-- An entry placed by its slot, in place of one that holds the slot. -/
def insertTare (e : TareEntry) : List TareEntry → List TareEntry
  | [] => [e]
  | x :: t => if e.slot < x.slot then e :: x :: t else if e.slot = x.slot then e :: t else x :: insertTare e t

/-- The judgment of an entry at a time under a generation, the first that applies (R105). -/
def judge (e : TareEntry) (time generation ageDays : Nat) : Judgment :=
  if e.generation ≠ generation then .generation
  else if time < e.time then .future
  else if ageDays * 86400 < time - e.time then .age
  else .valid

/-- The judgment of an identity's entry, ABSENT where there is none (R105). -/
def Tickets.judgeId (t : Tickets) (id : Identity) (time generation ageDays : Nat) : Judgment :=
  match t.findTare id with
  | some e => judge e time generation ageDays
  | none => .absent

/-- The code of TARE READ (A.3). -/
def codeTareRead : Byte := 0x07#8

/-- An identity field has its 17 bytes (A.3); another length is no layout of the command. -/
def identityLength (bytes : List Byte) : Bool := bytes.length == 17

/-- TARE READ (R106). -/
def Dev.tareRead (d : Dev) (tag : Byte) (identity : List Byte) : Dev :=
  match identityOfBytes identity with
  | none => d.dispatch .console codeTareRead tag (identityLength identity) false id
  | some v =>
    d.dispatch .console codeTareRead tag true true fun d =>
      match d.tickets.findTare v with
      | none => d.finish .console .noTare .none
      | some e =>
        let now := d.clock.count
        let j := judge e now d.metro.generation d.metro.site.tareAge
        if d.clock.valid then
          d.finish .console .ok (.tare e j (if e.time ≤ now then some (now - e.time) else none))
        else d.finish .console .ok (.tare e (if j = .generation then .generation else .timeUnset) none)

/-- The code of TARE DELETE (A.3). -/
def codeTareDelete : Byte := 0x08#8

/-- TARE DELETE (R107): the entry leaves the table at admission. -/
def Dev.tareDelete (d : Dev) (tag : Byte) (identity : List Byte) : Dev :=
  match identityOfBytes identity with
  | none => d.dispatch .console codeTareDelete tag (identityLength identity) false id
  | some v =>
    d.dispatch .console codeTareDelete tag true true fun d =>
      match d.tickets.findTare v with
      | none => d.finish .console .noTare .none
      | some e =>
        match d.offer [removal .tares e.slot] (.answer .console .ok .none) with
        | none => d.finish .console .storeBusy .none
        | some d => { d with tickets := { d.tickets with tares := d.tickets.tares.filter fun x => x.slot != e.slot } }

/-! ## The archives (R110, R111, R116, R133) -/

/-- The slot of a weighing number (R110). -/
def weighingSlot (n : Nat) : Nat := (n - 1) % 4096

/-- The slot of a ticket number (R116). -/
def ticketSlot (n : Nat) : Nat := (n - 1) % 2048

/-- The number of the record a weighing slot holds, VALID or DAMAGED (R110). -/
def Store.weighingIn (s : Store) (slot : Nat) : Option Nat :=
  let e := s.indexAt .weighings slot
  if e.cls = .valid ∨ e.cls = .damaged then some e.key else none

/-- What the lookup of an archive or trail key finds (R110, R116, R181). -/
inductive Found (α : Type)
  | record (r : α)
  | damaged
  | absent
  deriving DecidableEq, Repr

/-- A lookup through the slot index: the slot is read where the index gives the key as VALID or DAMAGED (R111, R133, R138).
A DAMAGED slot answers DAMAGED until its completion word is lost; a VALID record that its layout does not allow is DAMAGED
(R203). The second part of the result is what the read of a VALID slot found, for the reports of R185. -/
def Dev.lookup {α : Type} (d : Dev) (r : Region) (slot key : Nat) (decode : List Word → Option α) : Found α × SlotRead × Dev :=
  let e := d.store.indexAt r slot
  if e.key = key ∧ e.cls = .damaged then
    let (found, d) := d.readSlot r slot .read
    (if found = .lost then .absent else .damaged, .words [], d)
  else if e.key = key ∧ e.cls = .valid then
    let (found, d) := d.readSlot r slot .read
    match found with
    | .words body =>
      match decode body with
      | some v => (.record v, found, d)
      | none => (.damaged, found, d)
    | .damaged => (.damaged, found, d)
    | .lost => (.absent, found, d)
  else (.absent, .words [], d)

/-- The code of WEIGHING READ (A.3). -/
def codeWeighingRead : Byte := 0x0C#8

/-- WEIGHING READ (R111). -/
def Dev.weighingRead (d : Dev) (tag : Byte) (weighing : Word) : Dev :=
  d.dispatch .console codeWeighingRead tag true (numberInRange weighing) fun d =>
    let n := weighing.toNat
    let (found, _, d) := d.lookup .weighings (weighingSlot n) n (weighingOfWords n)
    match found with
    | .record w => d.finish .console .ok (.weighing w)
    | .damaged => d.finish .console .damaged (.number n)
    | .absent => d.finish .console .notFound .none

/-- How many group records a summary has. -/
def groupCount (s : Option AxleSummary) : Nat := match s with | some s => s.groups.length | none => 0

/-- How many parts a record has: one, and one more for each six groups (R194). -/
def partCount (s : Option AxleSummary) : Nat := 1 + (groupCount s + 5) / 6

/-- A summary without its group records, as part 0 carries it (R194). -/
def AxleSummary.withoutGroups (s : AxleSummary) : AxleSummary := { s with groups := [] }

/-- A ticket as part 0 carries it (R194). -/
def Ticket.withoutGroups (t : Ticket) : Ticket := { t with summary := t.summary.map AxleSummary.withoutGroups }

/-- The figures of a summary that follow from its groups (R194, R203). -/
def AxleSummary.figures (s : AxleSummary) : SummaryFigures := ⟨s.axles, s.reportedSum, s.grossVerdict, s.worst⟩

/-- The group records of a part (R194). -/
def partGroups (s : Option AxleSummary) (part : Nat) : List GroupReport :=
  match s with
  | some s => (s.reports.drop (6 * (part - 1))).take 6
  | none => []

/-- The code of RECORD READ (A.3). -/
def codeRecordRead : Byte := 0x0B#8

/-- The highest part number (R194). -/
def maxPart : Nat := 4

/-- RECORD READ on the console or the inventory link (R133, R194). -/
def Dev.recordRead (d : Dev) (link : Link) (tag part : Byte) (ticket : Word) : Dev :=
  d.dispatch link codeRecordRead tag (link == .console || link == .inventory)
      (decide (part.toNat ≤ maxPart) && numberInRange ticket) fun d =>
    let n := ticket.toNat
    let (found, _, d) := d.lookup .tickets (ticketSlot n) n (ticketOfWords n)
    match found with
    | .record t =>
      if partCount t.summary ≤ part.toNat then d.finish link .range .none
      else if part = 0#8 then d.finish link .ok 
        (.ticket t.withoutGroups (t.summary.map (·.figures)) (partCount t.summary) (groupCount t.summary))
      else d.finish link .ok (.groups part.toNat n (partGroups t.summary part.toNat))
    | .damaged => d.finish link .damaged (.number n)
    | .absent => d.finish link .notFound .none

/-! ## Trade status (R114) -/

/-- The reasons of NOT_FOR_TRADE for two weighings' generations and statuses (R114). -/
def tradeReasons (grossGen tareGen : Nat) (gross tare : VerStatus) : TradeReasons :=
  { mixedCal := grossGen != tareGen, pendingVerify := gross == .pending || tare == .pending,
    failedVerify := gross == .failed || tare == .failed, integrity := gross == .integrity || tare == .integrity }

/-- FOR_TRADE: one generation, and both statuses VERIFIED (R114). -/
def forTrade (grossGen tareGen : Nat) (gross tare : VerStatus) : Bool :=
  grossGen == tareGen && gross == .verified && tare == .verified

/-! ## The ticket queue (section 7.1) -/

/-- How many entries are POSTED. -/
def Tickets.postedCount (t : Tickets) : Nat := (t.queue.filter (·.posted)).length

/-- How many entries are PENDING. -/
def Tickets.pendingCount (t : Tickets) : Nat := (t.queue.filter fun e => !e.posted).length

/-- The entries the queue holds at most (R123). -/
def maxQueue : Nat := 32

/-- The lowest-numbered queue slot that no entry holds (R123). -/
def Tickets.freeQueueSlot (t : Tickets) : Nat := (lowestFree (t.queue.map (·.slot)) maxQueue).getD 0

/-- An entry placed by its ticket number (R123, R124). -/
def insertTicket (e : QueueTicket) : List QueueTicket → List QueueTicket
  | [] => [e]
  | x :: t => if e.number < x.number then e :: x :: t else x :: insertTicket e t

/-- An entry marked POSTED. -/
def Tickets.post (t : Tickets) (number : Nat) : Tickets :=
  { t with queue := t.queue.map fun e => if e.number = number then { e with posted := true } else e }

/-- QUEUE_FULL on the console and inventory links where the queue holds 32 entries (R126). -/
def Dev.testQueueFull (d : Dev) : Dev :=
  if d.tickets.queue.length = maxQueue then
    let c := Cause.queueFull maxQueue (match d.tickets.queue.head? with | some e => e.number | none => 0)
    (d.raise .console c).raise .inventory c
  else d

/-- TICKET_AVAILABLE where the POSTED count meets the threshold, carrying a ticket number (R125). -/
def Dev.testThreshold (d : Dev) (number : Nat) : Dev :=
  if d.metro.site.threshold ≤ d.tickets.postedCount then
    d.raise .inventory (.ticketAvailable d.tickets.postedCount number)
  else d

/-- The highest ticket number posted (R125, R127). -/
def Tickets.highestPosted (t : Tickets) : Nat :=
  match (t.queue.filter (·.posted)).getLast? with | some e => e.number | none => 0

/-- The posting of an entry with its attention causes (R123, R125, R126). -/
def Dev.postTicket (d : Dev) (number : Nat) : Dev :=
  (({ d with tickets := d.tickets.post number } : Dev).testThreshold number).testQueueFull

/-- The code of TICKET TAKE (A.3). -/
def codeTicketTake : Byte := 0x41#8

/-- The take count of an entry raised (R128). -/
def Tickets.raiseTake (t : Tickets) (number : Nat) : Tickets :=
  { t with queue := t.queue.map fun e => if e.number = number then { e with takes := satInc 255 e.takes } else e }

/-- The summary of a queue entry's ticket. -/
def QueueTicket.summary (e : QueueTicket) : Option AxleSummary := e.ticket.bind (·.summary)

/-- TICKET TAKE (R128, R194). An entry with the DAMAGED mark has no record whose parts R194 could count; the model gives it one part,
so that parts 1 to 4 are RANGE (DESIGN CHOICE, log entry 55). With no POSTED entry a part above 0 is answered EMPTY too, with the count
of PENDING entries (DESIGN CHOICE, log entry 88). -/
def Dev.ticketTake (d : Dev) (tag part : Byte) : Dev :=
  d.dispatch .inventory codeTicketTake tag true (decide (part.toNat ≤ maxPart)) fun d =>
    match d.tickets.queue.find? (·.posted) with
    | none => d.finish .inventory .empty (.number d.tickets.pendingCount)
    | some e =>
      if partCount e.summary ≤ part.toNat then d.finish .inventory .range .none
      else if part = 0#8 then
        ({ d with tickets := d.tickets.raiseTake e.number } : Dev).finish .inventory
          (if e.ticket.isSome then .ok else .damaged)
          (.take e.number (satInc 255 e.takes) d.tickets.postedCount d.tickets.pendingCount
            (e.ticket.map (·.withoutGroups)) (e.summary.map (·.figures)) (partCount e.summary) (groupCount e.summary))
      else d.finish .inventory .ok (.groups part.toNat e.number (partGroups e.summary part.toNat))

/-- The code of TICKET CLEAR (A.3). -/
def codeTicketClear : Byte := 0x42#8

/-- TICKET CLEAR (R129): the entry leaves the queue at admission. -/
def Dev.ticketClear (d : Dev) (tag : Byte) (ticket : Word) : Dev :=
  d.dispatch .inventory codeTicketClear tag true (numberInRange ticket) fun d =>
    match d.tickets.queue.find? fun e => e.number == ticket.toNat with
    | none => d.finish .inventory .notFound .none
    | some e =>
      if !e.posted then d.finish .inventory .notPosted .none
      else
        match d.offer [removal .queue e.slot] .ticketClear with
        | none => d.finish .inventory .storeBusy .none
        | some d => { d with tickets := { d.tickets with queue := d.tickets.queue.filter fun x => x.number != e.number } }

/-! ## The meanings -/

/-- TARE READ. -/
def execTareRead (tag : Byte) (identity : List Byte) (s : State) : Host.Outcome State Fault Refusal :=
  .next { s with dev := s.dev.tareRead tag identity }

/-- TARE DELETE. -/
def execTareDelete (tag : Byte) (identity : List Byte) (s : State) : Host.Outcome State Fault Refusal :=
  .next { s with dev := s.dev.tareDelete tag identity }

/-- WEIGHING READ. -/
def execWeighingRead (tag : Byte) (weighing : Word) (s : State) : Host.Outcome State Fault Refusal :=
  .next { s with dev := s.dev.weighingRead tag weighing }

/-- RECORD READ. -/
def execRecordRead (link : Link) (tag part : Byte) (ticket : Word) (s : State) : Host.Outcome State Fault Refusal :=
  .next { s with dev := s.dev.recordRead link tag part ticket }

/-- TICKET TAKE. -/
def execTicketTake (tag part : Byte) (s : State) : Host.Outcome State Fault Refusal :=
  .next { s with dev := s.dev.ticketTake tag part }

/-- TICKET CLEAR. -/
def execTicketClear (tag : Byte) (ticket : Word) (s : State) : Host.Outcome State Fault Refusal :=
  .next { s with dev := s.dev.ticketClear tag ticket }

end Sys2Proof.Machine
end

