-- ==== Sys2Proof/Machine/Yard.lean ====
section
/-! DEFINITION. The yard register (sections 5.1 to 5.3, 7.3): its visits and numbers, and the commands VISIT OPEN, VISIT AMEND,
VISIT VOID, VISIT RELEASE, VISIT READ and VISIT LIST. -/

namespace Sys2Proof.Machine

/-! ## The register (R81, R82) -/

/-- The live visits at most (R81). -/
def maxVisits : Nat := 64

/-- The highest visit number (R82). -/
def maxVisitNumber : Nat := 65535

/-- The live visit with a number. -/
def Yard.find (y : Yard) (n : Nat) : Option Visit := y.visits.find? fun v => v.number == n

/-- The live visit with an identity. -/
def Yard.findId (y : Yard) (id : Identity) : Option Visit := y.visits.find? fun v => v.identity == id

/-- The visit number after a number, 1 after 65,535 (R82). -/
def nextVisit (n : Nat) : Nat := if n < maxVisitNumber then n + 1 else 1

/-- The first number after one given that no live visit holds, searched for in so many steps (R82). -/
def Yard.search (y : Yard) : Nat → Nat → Nat
  | 0, n => nextVisit n
  | k + 1, n => if (y.find (nextVisit n)).isSome then y.search k (nextVisit n) else nextVisit n

/-- The number of a new visit (R82). -/
def Yard.nextNumber (y : Yard) : Nat := y.search 64 y.lastNumber

/-- The slot of a new visit: the lowest-numbered that no live visit holds (R140). -/
def Yard.freeSlot (y : Yard) : Nat := (lowestFree (y.visits.map (·.slot)) maxVisits).getD 0

/-- A visit placed by its number. -/
def insertVisit (v : Visit) : List Visit → List Visit
  | [] => [v]
  | x :: t => if v.number < x.number then v :: x :: t else x :: insertVisit v t

/-- A new visit joins the register and its number is the last allocated (R82). -/
def Yard.add (y : Yard) (v : Visit) : Yard :=
  { y with visits := insertVisit v y.visits, lastNumber := v.number }

/-- A visit's record replaced. -/
def Yard.put (y : Yard) (v : Visit) : Yard :=
  { y with visits := y.visits.map fun x => if x.number = v.number then v else x }

/-- A visit removed from the register. -/
def Yard.remove (y : Yard) (n : Nat) : Yard := { y with visits := y.visits.filter fun v => v.number != n }

/-- Whether a visit is in use (R84). -/
def Yard.uses (y : Yard) (n : Nat) : Bool := y.inUse.any fun u => u.number == n

/-- Whether a visit is in use by a capture that removes it (R84). -/
def Yard.leaving (y : Yard) (n : Nat) : Bool := y.inUse.any fun u => u.number == n && u.leaving

/-- The change of a visit by a console command that needs a live visit not in use (R86 to R88). -/
def Dev.onVisit (d : Dev) (n : Nat) (act : Visit → Dev) : Dev :=
  match d.yard.find n with
  | none => d.finish .console .noVisit .none
  | some v => if d.yard.uses n then d.finish .console .visitInUse .none else act v

/-! ## VISIT OPEN (R85) -/

/-- The code of VISIT OPEN (A.3). -/
def codeVisitOpen : Byte := 0x02#8

/-- A visit as VISIT OPEN or an auto-open capture creates it (R85, R91, R94). -/
def Visit.fresh (number slot : Nat) (id : Identity) (dir : Direction) (commodity : Option Nat) (onePass : Bool)
    (by' : OpenedBy) : Visit :=
  { number := number, identity := id, direction := dir, commodity := commodity, onePass := onePass,
    loadedFirst := dir == .receival, state := .awaitingFirst, openedBy := by', first := none, summary := none,
    heldReleased := false, overloadReturn := false, slot := slot }

/-- VISIT OPEN. -/
def Dev.visitOpen (d : Dev) (tag : Byte) (identity : List Byte) (direction : Byte) (commodity : Half) (onePass : Byte) : Dev :=
  match identityOfBytes identity, directionOfByte direction, commodityOfHalf commodity, flagOfByte onePass with
  | some who, some dir, some com, some one =>
    d.dispatch .console codeVisitOpen tag true true fun d =>
      if (d.yard.findId who).isSome then d.finish .console .duplicate .none
      else if maxVisits ≤ d.yard.visits.length then d.finish .console .registerFull .none
      else
        let v := Visit.fresh d.yard.nextNumber d.yard.freeSlot who dir com one .console
        match d.offer [visitSpec v none] (.answer .console .ok (.number v.number)) with
        | none => d.finish .console .storeBusy .none
        | some d => { d with yard := d.yard.add v }
  | _, _, _, _ => d.dispatch .console codeVisitOpen tag (identityLength identity) false id

/-! ## VISIT AMEND, VISIT VOID, VISIT RELEASE (R86 to R88) -/

/-- The code of VISIT AMEND (A.3). -/
def codeVisitAmend : Byte := 0x03#8

/-- VISIT AMEND: the commodity is 1 to 999, since AMEND does not make it absent. -/
def Dev.visitAmend (d : Dev) (tag : Byte) (visit commodity : Half) : Dev :=
  d.dispatch .console codeVisitAmend tag true
      (decide (1 ≤ visit.toNat) && decide (1 ≤ commodity.toNat) && decide (commodity.toNat ≤ 999)) fun d =>
    d.onVisit visit.toNat fun v =>
      let v := { v with commodity := some commodity.toNat }
      match d.offer [visitSpec v none] (.answer .console .ok .none) with
      | none => d.finish .console .storeBusy .none
      | some d => { d with yard := d.yard.put v }

/-- The gone-mark of a request bound to a visit (R87, R90). -/
def Request.markGone (r : Request) (n : Nat) : Request :=
  match r.binding with
  | .visit role m gone => { r with binding := .visit role m (gone || m == n) }
  | _ => r

/-- The code of VISIT VOID (A.3). -/
def codeVisitVoid : Byte := 0x04#8

/-- VISIT VOID: the visit leaves at admission, and a request bound to it takes the gone-mark VOIDED. -/
def Dev.visitVoid (d : Dev) (tag : Byte) (visit : Half) : Dev :=
  d.dispatch .console codeVisitVoid tag true (decide (1 ≤ visit.toNat)) fun d =>
    d.onVisit visit.toNat fun v =>
      match d.offer [removal .visits v.slot] (.answer .console .ok .none) with
      | none => d.finish .console .storeBusy .none
      | some d =>
        { d with yard := d.yard.remove v.number,
                 bridge := { d.bridge with request := d.bridge.request.map fun r => r.markGone v.number } }

/-- The code of VISIT RELEASE (A.3). -/
def codeVisitRelease : Byte := 0x05#8

/-- VISIT RELEASE: a HELD visit goes to OPEN with the mark HELD_RELEASED. -/
def Dev.visitRelease (d : Dev) (tag : Byte) (visit : Half) : Dev :=
  d.dispatch .console codeVisitRelease tag true (decide (1 ≤ visit.toNat)) fun d =>
    d.onVisit visit.toNat fun v =>
      if v.state ≠ .held then d.finish .console .notHeld .none
      else
        let v := { v with state := .opened, heldReleased := true }
        match d.offer [visitSpec v none] (.answer .console .ok .none) with
        | none => d.finish .console .storeBusy .none
        | some d => { d with yard := d.yard.put v }

/-! ## VISIT READ and VISIT LIST (R89, R131) -/

/-- The role and phase of the request in flight where it is bound to a visit (R89). -/
def Dev.requestOn (d : Dev) (n : Nat) : Option (Role × Bool) :=
  match d.bridge.request with
  | some r =>
    match r.binding with
    | .visit role m gone => if m = n ∧ gone = false then some (role, d.bridge.state == .recording) else none
    | _ => none
  | none => none

/-- The code of VISIT READ (A.3). -/
def codeVisitRead : Byte := 0x06#8

/-- A visit as part 0 carries it (R194). -/
def Visit.withoutGroups (v : Visit) : Visit := { v with summary := v.summary.map AxleSummary.withoutGroups }

/-- The answer of VISIT READ for a visit found (R89, R194). -/
def Dev.answerVisit (d : Dev) (part : Nat) (v : Visit) : Dev :=
  if partCount v.summary ≤ part then d.finish .console .range .none
  else if part = 0 then
    d.finish .console .ok
      (.visit v.withoutGroups (v.summary.map (·.figures)) (d.yard.uses v.number) (d.yard.leaving v.number)
        (d.requestOn v.number) (partCount v.summary) (groupCount v.summary))
  else d.finish .console .ok (.groups part v.number (partGroups v.summary part))

/-- VISIT READ by number or by identity. -/
def Dev.visitRead (d : Dev) (tag part : Byte) (key : VisitKey) : Dev :=
  let partOk := decide (part.toNat ≤ maxPart)
  match key with
  | .number n =>
    d.dispatch .console codeVisitRead tag true (partOk && decide (1 ≤ n.toNat)) fun d =>
      match d.yard.find n.toNat with
      | none => d.finish .console .noVisit .none
      | some v => d.answerVisit part.toNat v
  | .identity bytes =>
    match identityOfBytes bytes with
    | none => d.dispatch .console codeVisitRead tag (identityLength bytes) false id
    | some who =>
      d.dispatch .console codeVisitRead tag true partOk fun d =>
        match d.yard.findId who with
        | none => d.finish .console .noVisit .none
        | some v => d.answerVisit part.toNat v

/-- A visit as VISIT LIST gives it (R131). -/
def Yard.brief (y : Yard) (v : Visit) : VisitSummary :=
  { number := v.number, identity := v.identity, direction := v.direction, state := v.state, openedBy := v.openedBy,
    commodity := v.commodity, onePass := v.onePass, first := v.first.map fun f => (f.number, f.weight, f.time),
    verdict := v.summary.map fun s => (s.worst, s.indicative), heldReleased := v.heldReleased,
    overloadReturn := v.overloadReturn, inUse := y.uses v.number, leaving := y.leaving v.number }

/-- The visits a VISIT LIST from a number returns, and the next number (R131). -/
def Yard.listFrom (y : Yard) (start limit : Nat) : List Visit × Nat :=
  let from' := y.visits.filter fun v => decide (start ≤ v.number)
  let taken := from'.take limit
  (taken,
    match taken.getLast? with
    | some v => if (from'.drop limit).isEmpty then 0 else v.number + 1
    | none => 0)

/-- The code of VISIT LIST (A.3). -/
def codeVisitList : Byte := 0x43#8

/-- VISIT LIST: a starting number of 0 is taken as 1, a list limit of 0 as 2. -/
def Dev.visitList (d : Dev) (tag : Byte) (start : Half) : Dev :=
  d.dispatch .inventory codeVisitList tag true true fun d =>
    let limit := if d.metro.site.listLimit = 0 then 2 else d.metro.site.listLimit
    let (taken, next) := d.yard.listFrom (max 1 start.toNat) limit
    d.finish .inventory .ok (.visitList (taken.map d.yard.brief) d.yard.visits.length next)

/-! ## The meanings -/

/-- VISIT OPEN. -/
def execVisitOpen (tag : Byte) (identity : List Byte) (direction : Byte) (commodity : Half) (onePass : Byte) (s : State) :
    Host.Outcome State Fault Refusal :=
  .next { s with dev := s.dev.visitOpen tag identity direction commodity onePass }

/-- VISIT AMEND. -/
def execVisitAmend (tag : Byte) (visit commodity : Half) (s : State) : Host.Outcome State Fault Refusal :=
  .next { s with dev := s.dev.visitAmend tag visit commodity }

/-- VISIT VOID. -/
def execVisitVoid (tag : Byte) (visit : Half) (s : State) : Host.Outcome State Fault Refusal :=
  .next { s with dev := s.dev.visitVoid tag visit }

/-- VISIT RELEASE. -/
def execVisitRelease (tag : Byte) (visit : Half) (s : State) : Host.Outcome State Fault Refusal :=
  .next { s with dev := s.dev.visitRelease tag visit }

/-- VISIT READ. -/
def execVisitRead (tag part : Byte) (key : VisitKey) (s : State) : Host.Outcome State Fault Refusal :=
  .next { s with dev := s.dev.visitRead tag part key }

/-- VISIT LIST. -/
def execVisitList (tag : Byte) (start : Half) (s : State) : Host.Outcome State Fault Refusal :=
  .next { s with dev := s.dev.visitList tag start }

end Sys2Proof.Machine
end

