-- ==== Sys2Proof/Machine/Recording.lean ====
section
/-! DEFINITION. A WEIGH from its acceptance to its records (sections 2.4, 5.4, 5.5, 4.5, 6.2 to 6.4): the checks and the
binding, the capture at a bridge sample, and what the yard register and the ticket unit make of it. -/

namespace Sys2Proof.Machine

/-! ## Acceptance and binding (R36, R37, R90, R103) -/

/-- The refusals of a WEIGH at acceptance, in the order of R36. -/
def Dev.weighRefusal (d : Dev) : Option Status :=
  let r := d.lastSample
  if d.calActive then some .calMode
  else if d.inSession then some .audit
  else if !d.clock.valid then some .timeUnset
  else if r.invalid.unmapped || r.invalid.unset then some .cellFault
  else if d.bridge.state ≠ .standing then some .notStanding
  else none

/-- The most stored tares (R102). -/
def maxTares : Nat := 256

/-- The binding of a request, or its refusal (R90, R103). -/
def Dev.bind (d : Dev) (purpose : Purpose) (id : Identity) : Except Status Binding :=
  match purpose with
  | .tareRecord =>
    if (d.tickets.findTare id).isNone ∧ maxTares ≤ d.tickets.tares.length then .error .tareTableFull else .ok .tare
  | .weighNext =>
    match d.yard.findId id with
    | some v =>
      match v.state with
      | .held => .error .held
      | .awaitingFirst =>
        if !v.onePass then .ok (.visit .first v.number false)
        else if v.commodity.isSome then .ok (.visit .onePass v.number false)
        else .error .noCommodity
      | .opened => if v.commodity.isSome then .ok (.visit .second v.number false) else .error .noCommodity
    | none => if d.metro.site.autoOpen then .ok .autoOpen else .error .noVisit

/-- The code of WEIGH (A.3). -/
def codeWeigh : Byte := 0x21#8

/-- The wait limit of a wait-timer setting in seconds, in bridge samples; 0 gives no limit (R37, R172). -/
def waitLimitOf (seconds : Nat) : Option Nat := if seconds = 0 then none else some (100 * seconds)

/-- A WEIGH taken: refused at once, or bound and handed off to wait (R36, R37). -/
def Dev.weigh (d : Dev) (tag purpose : Byte) (identity : List Byte) : Dev :=
  match purposeOfByte purpose, identityOfBytes identity with
  | some p, some who =>
    d.dispatch .lane codeWeigh tag true true fun d =>
      match d.weighRefusal with
      | some status => d.finish .lane status .none
      | none =>
        match d.bind p who with
        | .error status => d.finish .lane status .none
        | .ok b =>
          ((d.handOff .lane).onBridge fun x =>
            { x with request := some ⟨who, p, b, none, 0, waitLimitOf d.metro.site.waitTimer⟩ }).changeBridge .waiting
  | _, _ => d.dispatch .lane codeWeigh tag (identityLength identity) false id

/-! ## The axle summary of a capture (R75 to R77) -/

/-- Whether a capture in a role on a visit is its loaded weighing (R91). -/
def isLoaded (role : Role) (v : Visit) : Bool :=
  match role with
  | .first => v.loadedFirst
  | .second => !v.loadedFirst
  | .onePass => true
  | .tare => false

/-- The copy of the summary the axle unit gives for a capture, its INDICATIVE reasons completed (R75, R76). -/
def Dev.summaryFor (d : Dev) (c : Capture) : Option AxleSummary :=
  match d.axle.pass with
  | none => none
  | some p =>
    if c.pass = some p.openedAt ∧ p.marks.calMode = false then
      p.summary.map fun s =>
        { s with indicative :=
          { s.indicative with
            generation := s.indicative.generation || s.generation != c.generation,
            inconsistent := s.indicative.inconsistent || inconsistent s.sum c.weight c.e } }
    else none

/-- Whether a summary stops a capture under the overload policy HOLD (R77). -/
def holds (hold : Bool) (s : Option AxleSummary) : Bool :=
  hold && (match s with | some s => !s.indicative.any && s.worst == .major | none => false)

/-- The summary fields of a WEIGH response (R80). -/
def summaryField (loaded : Bool) (s : Option AxleSummary) : SummaryField :=
  if loaded then
    match s with
    | some s => .present s.worst s.grossVerdict s.indicative
    | none => .absent
  else .noFields

/-! ## What a capture means (R92 to R99) -/

/-- The purpose of a weighing record that keeps its role (R108). -/
def Role.purpose : Role → RecordPurpose
  | .first => .first | .second => .second | .onePass => .onePass | .tare => .tare

/-- What the register decides for a capture on a visit: the status of the response, the weighing record's purpose, the visit
as the operation leaves it (none for a visit whose record is not written), the ticket (none where none is formed), whether
VISIT_HELD is raised, the note and the role applied. -/
structure Outcome where
  status : Status
  purpose : RecordPurpose
  visit : Option Visit
  ticket : Option Ticket
  held : Bool
  note : TareNote
  role : Role
  deriving DecidableEq, Repr

/-- A weighing of a visit as the ticket takes it: weight, e, status, generation, number and time. -/
structure Side where
  weight : Int
  e : Interval
  status : VerStatus
  generation : Nat
  number : Nat
  time : Nat
  deriving DecidableEq, Repr

/-- A first weighing as a side of a ticket. -/
def FirstWeighing.side (f : FirstWeighing) : Side := ⟨f.weight, f.e, f.status, f.generation, f.number, f.time⟩

/-- A capture as a side of a ticket, under its weighing number. -/
def Capture.side (c : Capture) (number : Nat) : Side := ⟨c.weight, c.e, c.status, c.generation, number, c.time⟩

/-- A stored tare as a side of a ticket (R113). -/
def TareEntry.side (e : TareEntry) : Side := ⟨e.weight, e.e, e.status, e.generation, e.weighing, e.time⟩

/-- A capture as the first weighing of a visit (R95). -/
def Capture.asFirst (c : Capture) (number : Nat) : FirstWeighing :=
  ⟨number, c.weight, c.time, c.e, c.generation, c.status⟩

/-- A ticket formed from a visit, its gross and its tare (R113 to R115). -/
def formTicket (v : Visit) (number : Nat) (gross tare : Side) (stored formedByTare : Bool) (summary : Option AxleSummary) :
    Ticket :=
  { number := number, visit := v.number, identity := v.identity, direction := v.direction,
    commodity := v.commodity.getD 0, gross := gross.weight, grossE := gross.e, grossStatus := gross.status,
    grossGeneration := gross.generation, grossNumber := gross.number, grossTime := gross.time, tare := tare.weight,
    tareE := tare.e, tareStatus := tare.status, tareGeneration := tare.generation, tareStored := stored,
    tareNumber := tare.number, tareTime := tare.time, formedByTare := formedByTare,
    forTrade := forTrade gross.generation tare.generation gross.status tare.status,
    reasons := tradeReasons gross.generation tare.generation gross.status tare.status,
    heldReleased := v.heldReleased, autoOpened := v.openedBy == .auto, overloadReturn := v.overloadReturn,
    summary := summary }

/-- The outcome of a capture that becomes the visit's first weighing in a state (R78, R95, R96). -/
def firstOutcome (v : Visit) (c : Capture) (number : Nat) (after : VisitState) (note : TareNote) : Outcome :=
  { status := .ok, purpose := .first, visit := some { v with state := after, first := some (c.asFirst number) }, ticket := none,
    held := after == .held, note := note, role := .first }

/-- The outcome of a capture with both weighings known (R98): `summary` is the ticket's, `loaded` that the capture is the
loaded weighing. -/
def netOutcome (v : Visit) (role : Role) (loaded : Bool) (gross tare : Side) (stored full : Bool) (ticket : Nat)
    (summary : Option AxleSummary) : Outcome :=
  let refused := fun (status : Status) =>
    { status := status, purpose := role.purpose, visit := if loaded then some v else none, ticket := none, held := false,
      note := .none, role := role : Outcome }
  if gross.weight < tare.weight then refused .negativeNet
  else if full then refused .queueFull
  else
    { status := .ok, purpose := role.purpose, visit := some v,
      ticket := some (formTicket v ticket gross tare stored (!loaded) summary), held := false, note := .none, role := role }

/-- Steps 3 and 4 of R92 for a capture in a role on a visit, under the numbers it would take. A visit's summary is that of its last
loaded weighing to be recorded: one that takes none leaves the visit with none, so that a ticket whose loaded weighing took no
summary carries none (R76, R97, R115; log entry 44). -/
def Dev.outcomeOf (d : Dev) (v : Visit) (role : Role) (c : Capture) (number ticket : Nat) : Outcome × SummaryField :=
  let loaded := isLoaded role v
  let copy := if loaded then d.summaryFor c else none
  let v := if loaded then { v with summary := copy } else v
  let full := decide (maxQueue ≤ d.tickets.queue.length)
  let outcome : Outcome :=
    if holds d.metro.site.hold copy then
      match v.direction with
      | .receival => firstOutcome { v with onePass := v.onePass && role != .onePass } c number .held .none
      | .outturn =>
        { status := .overloadHold, purpose := role.purpose, visit := some { v with overloadReturn := true }, ticket := none,
          held := false, note := .none, role := role }
    else
      match role with
      | .second =>
        let first := (v.first.getD (c.asFirst number)).side
        if loaded then netOutcome v role true (c.side number) first false full ticket copy
        else netOutcome v role false first (c.side number) false full ticket v.summary
      | .onePass =>
        match d.tickets.judgeId c.identity c.time c.generation d.metro.site.tareAge, d.tickets.findTare c.identity with
        | .valid, some e => netOutcome v role true (c.side number) e.side true full ticket copy
        | j, _ => firstOutcome { v with onePass := false, loadedFirst := true } c number .opened (.invalid j)
      | _ => firstOutcome v c number .opened .none
  (outcome, summaryField loaded copy)

/-! ## The records (R109, R112, R117 to R119) -/

/-- The last number that can be given (R109, R112). -/
def maxNumber : Nat := 99999999

/-- The live visit whose first weighing an archive slot's record is (R99, R110). -/
def Dev.expiring (d : Dev) (number : Nat) : Option Visit :=
  match d.store.weighingIn (weighingSlot number) with
  | none => none
  | some m => d.yard.visits.find? fun v => v.first.any fun f => f.number == m

/-- VISIT_EXPIRED for a visit (R99). -/
def expiredCause (v : Visit) : Cause :=
  .visitExpired v.number v.identity (match v.first with | some f => f.number | none => 0)

/-- A weighing record of a capture. -/
def Capture.record (c : Capture) (number : Nat) (purpose : RecordPurpose) (visit : Option Nat) : WeighingRecord :=
  { number := number, identity := c.identity, time := c.time, weight := c.weight, e := c.e, status := c.status,
    purpose := purpose, generation := c.generation, visit := visit }

/-- A refusal reported at once, with no fields (R41, R92). -/
def Dev.refuseCapture (d : Dev) (status : Status) : Dev := d.weighReport ⟨status, none⟩

/-- The removal record of an expired visit, where there is one. -/
def expiryRemoval (v : Option Visit) : List RecordSpec :=
  match v with | some v => [removal .visits v.slot] | none => []

/-- VISIT_EXPIRED, where a visit expired. -/
def expiryCauses (v : Option Visit) : List Cause := match v with | some v => [expiredCause v] | none => []

/-- The register without an expired visit. -/
def Yard.expire (y : Yard) (v : Option Visit) : Yard := match v with | some v => y.remove v.number | none => y

/-- The fields of a WEIGH response for a weighing recorded on no visit. -/
def plainFields (note : TareNote) (role : Option Role) (number : Nat) (weight : Int) : WeighFields :=
  { note := note, role := role, visitState := none, visit := none, weighing := number, weight := weight, ticket := none,
    net := none, summary := .noFields }

/-- A capture written UNATTACHED (R93, R94). -/
def Dev.unattached (d : Dev) (c : Capture) (status : Status) : Dev :=
  if maxNumber ≤ d.tickets.lastWeighing then d.refuseCapture .numbersExhausted
  else
    let n := d.tickets.lastWeighing + 1
    let gone := d.expiring n
    match d.offer (weighingSpec (c.record n .unattached none) :: expiryRemoval gone)
        (.weigh ⟨status, some (plainFields .none none n c.weight)⟩ (expiryCauses gone) none) with
    | none => d.refuseCapture .storeBusy
    | some d =>
      { d with yard := d.yard.expire gone, tickets := { d.tickets with lastWeighing := n } }

/-- A TARE_RECORD capture (R104). -/
def Dev.recordTare (d : Dev) (c : Capture) : Dev :=
  let old := d.tickets.findTare c.identity
  if old.isNone ∧ maxTares ≤ d.tickets.tares.length then d.refuseCapture .tareTableFull
  else if maxNumber ≤ d.tickets.lastWeighing then d.refuseCapture .numbersExhausted
  else
    let n := d.tickets.lastWeighing + 1
    let slot := match old with
      | some e => e.slot
      | none => (lowestFree (d.tickets.tares.map (·.slot)) maxTares).getD 0
    let entry : TareEntry := ⟨c.identity, c.weight, c.time, c.e, c.generation, c.status, n, slot⟩
    let note := if old.isSome then .replaced else .created
    let gone := d.expiring n
    match d.offer (weighingSpec (c.record n .tare none) :: (expiryRemoval gone ++ [tareSpec entry]))
        (.weigh ⟨.ok, some (plainFields note (some .tare) n c.weight)⟩ (expiryCauses gone) none) with
    | none => d.refuseCapture .storeBusy
    | some d =>
      { d with yard := d.yard.expire gone,
               tickets := { d.tickets with lastWeighing := n, tares := insertTare entry d.tickets.tares } }

/-- The state of a visit after a capture (A.3). -/
def VisitState.after : VisitState → VisitAfter
  | .awaitingFirst => .awaitingFirst | .opened => .opened | .held => .held

/-- The capture's own visit put into the register in the state the operation leaves it, and taken into use (R83, R84). -/
def Yard.applyTo (y : Yard) (v : Visit) (created leaving : Bool) : Yard :=
  { (if created then y.add v else y.put v) with inUse := some ⟨v.number, leaving⟩ }

/-- Steps 3 to 6 of R92: a capture applied to a visit in a role; `created` says that an auto-open creates the visit. -/
def Dev.captureOn (d : Dev) (c : Capture) (v : Visit) (role : Role) (created : Bool) : Dev :=
  let n := d.tickets.lastWeighing + 1
  let t := d.tickets.lastTicket + 1
  let (o, summary) := d.outcomeOf v role c n t
  if maxNumber ≤ d.tickets.lastWeighing then d.refuseCapture .numbersExhausted
  else if o.ticket.isSome ∧ maxNumber ≤ d.tickets.lastTicket then d.refuseCapture .numbersExhausted
  else
    let after := o.visit.getD v
    let expired := d.expiring n
    let own := match expired with | some x => x.number == v.number | none => false
    let weighing := weighingSpec (c.record n o.purpose (some v.number))
    let fields : WeighFields :=
      { note := o.note, role := some o.role, visitState := some after.state.after, visit := some v.number, weighing := n,
        weight := c.weight, ticket := none, net := none, summary := summary }
    match o.ticket with
    | some k =>
      let slot := d.tickets.freeQueueSlot
      let gone := if own then none else expired
      let records :=
        weighing :: (expiryRemoval gone
          ++ [visitSpec after (some t), ticketSpec k, queueSpec slot t (some k), removal .visits v.slot])
      let fields := { fields with visitState := some .leaving, ticket := some t, net := some k.net }
      match d.offer records (.weigh ⟨.ok, some fields⟩ (expiryCauses gone) (some t)) with
      | none => d.refuseCapture .storeBusy
      | some d =>
        { d with
          yard := (d.yard.expire gone).applyTo after created true,
          tickets := { d.tickets with
            lastWeighing := n, lastTicket := t, queue := insertTicket ⟨t, false, some k, 0, slot⟩ d.tickets.queue } }
    | none =>
      if own then
        match d.offer (weighing :: expiryRemoval expired)
            (.weigh ⟨.visitExpired, some { fields with visitState := none, visit := none }⟩ (expiryCauses expired) none) with
        | none => d.refuseCapture .storeBusy
        | some d =>
          { d with yard := d.yard.expire expired, tickets := { d.tickets with lastWeighing := n } }
      else
        let causes := expiryCauses expired
          ++ (if o.held then
            [Cause.visitHeld v.number v.identity (match after.summary with | some s => s.worst | none => .unchecked)]
          else [])
        match d.offer
            (weighing :: (expiryRemoval expired ++ (match o.visit with | some v => [visitSpec v none] | none => [])))
            (.weigh ⟨o.status, some fields⟩ causes none) with
        | none => d.refuseCapture .storeBusy
        | some d =>
          { d with
            yard := (d.yard.expire expired).applyTo after created false,
            tickets := { d.tickets with lastWeighing := n } }

/-- A capture applied (R92): to the tare table, to its visit, or to what auto-open finds (R94). -/
def Dev.applyCapture (d : Dev) (c : Capture) : Dev :=
  match c.binding with
  | .tare => d.recordTare c
  | .visit role n gone =>
    if gone then d.unattached c .visitVoided
    else
      match d.yard.find n with
      | none => d.unattached c .visitVoided
      | some v => d.captureOn c v role false
  | .autoOpen =>
    match d.yard.findId c.identity with
    | some v => d.captureOn c v .first false
    | none =>
      if maxVisits ≤ d.yard.visits.length then d.unattached c .registerFull
      else
        let v := Visit.fresh d.yard.nextNumber d.yard.freeSlot c.identity d.metro.site.defaultDirection none false .auto
        d.captureOn c v .first true

/-! ## The capture at a bridge sample (R38) -/

/-- The five conditions of R38 at the sample just completed, with the beams as they stand. -/
def Dev.mayCapture (d : Dev) : Bool :=
  let r := d.lastSample
  !r.invalid.any && r.range == .within && decide (d.inForce.emptyThreshold ≤ r.filtered) && !d.bridge.entryBeam.blocked
    && !d.bridge.exitBeam.blocked && r.stable

/-- The capture record of a request (R38). -/
def Dev.captureRecord (d : Dev) (r : Request) : Capture :=
  { identity := r.identity, purpose := r.purpose, binding := r.binding, weight := d.lastSample.indicated.getD 0,
    e := d.inForce.e, generation := d.metro.generation, status := d.metro.status, time := d.clock.count,
    pass := d.axle.pass.map (·.openedAt) }

/-- The beams' levels as the sample saw them (R32, R39). -/
def Dev.noteBeams (d : Dev) : Dev :=
  d.onBridge fun b =>
    { b with entryBeam := { b.entryBeam with atSample := b.entryBeam.blocked },
             exitBeam := { b.exitBeam with atSample := b.exitBeam.blocked } }

/-- A request in WAITING at a bridge sample: captured and applied, or its wait count raised (R38). -/
def Dev.sampleRequest (d : Dev) : Dev :=
  let d := d.noteBeams
  match d.bridge.state, d.bridge.request with
  | .waiting, some r =>
    if d.mayCapture then
      let c := d.captureRecord r
      ((d.onBridge fun b => { b with request := some { r with capture := some c } }).changeBridge .recording).applyCapture c
    else d.onBridge fun b => { b with request := some { r with waitCount := r.waitCount + 1 } }
  | _, _ => d

/-! ## The meaning -/

/-- WEIGH. -/
def execWeigh (tag purpose : Byte) (identity : List Byte) (s : State) : Host.Outcome State Fault Refusal :=
  .next { s with dev := s.dev.weigh tag purpose identity }

end Sys2Proof.Machine
end

