-- ==== Sys2Proof/Machine/Audit.lean ====
section
/-! DEFINITION. Verification audits and the audit trail (chapter 10): the session and its points, AUDIT END, the trail's reads
and archive marks, SITE SET, SET TIME, and the integrity writes. -/

namespace Sys2Proof.Machine

/-! ## The session (R171, R177) -/

/-- The code of AUDIT BEGIN (A.3). -/
def codeAuditBegin : Byte := 0x69#8

/-- The refusals of AUDIT BEGIN, in the order of R171. -/
def Dev.auditRefusal (d : Dev) : Option Status :=
  let r := d.lastSample
  if d.inSession then some .audit
  else if d.calActive then some .calMode
  else if d.bridge.request.isSome then some .bridgeBusy
  else if !d.clock.valid then some .timeUnset
  else if r.invalid.unmapped || r.invalid.unset then some .cellFault
  else none

/-- AUDIT BEGIN: the session opens with its header (R171); the tracking count is held at 0 (R35). -/
def Dev.auditBegin (d : Dev) (tag : Byte) : Dev :=
  d.dispatch .service codeAuditBegin tag true true fun d =>
    match d.auditRefusal with
    | some status => d.finish .service status .none
    | none =>
      let m := d.metro
      let session : Session :=
        { begunAt := d.clock.count, generation := m.generation, e := m.current.e, decks := m.current.decks,
          inService := m.site.mpeInService, points := [], waiting := none }
      ({ d with metro := { m with session := some session }, weighing := { d.weighing with tracking := 0 } } : Dev).finish
        .service .ok (.auditBegin m.generation m.status m.site.mpeInService m.current.e m.current.decks)

/-- The code of AUDIT ABORT (A.3). -/
def codeAuditAbort : Byte := 0x6B#8

/-- AUDIT ABORT: a waiting point ends ABORTED, the session closes, and the points dropped are counted (R177). -/
def Dev.auditAbort (d : Dev) (tag : Byte) : Dev :=
  d.dispatch .service codeAuditAbort tag true true fun d =>
    match d.metro.session with
    | none => d.finish .service .notInAudit .none
    | some s =>
      let d := d.endPoint .aborted
      ({ d with metro := { d.metro with session := none } } : Dev).finish .service .ok (.number s.points.length)

/-! ## Points (R172 to R174) -/

/-- The code of AUDIT POINT (A.3). -/
def codeAuditPoint : Byte := 0x68#8

/-- The points a session holds at most (section 10.1). -/
def maxPoints : Nat := 24

/-- Whether a point's deck and reference suit its kind (R172). -/
def pointInRange (kind : PointKind) (deck reference decks : Nat) : Bool :=
  match kind with
  | .zero => reference == 0
  | .deck => decide (1 ≤ reference) && decide (reference ≤ 200000) && decide (1 ≤ deck) && decide (deck ≤ decks)
  | _ => decide (1 ≤ reference) && decide (reference ≤ 200000)

/-- AUDIT POINT: the point waits, and the slot returns to IDLE (R172). -/
def Dev.auditPoint (d : Dev) (tag kind deck : Byte) (reference : Word) : Dev :=
  match pointKindOfByte kind with
  | none => d.dispatch .service codeAuditPoint tag true false id
  | some k =>
    d.dispatch .service codeAuditPoint tag true true fun d =>
      match d.metro.session with
      | none => d.finish .service .notInAudit .none
      | some s =>
        if s.waiting.isSome then d.finish .service .pointBusy .none
        else if maxPoints ≤ s.points.length then d.finish .service .sessionFull .none
        else if !pointInRange k deck.toNat reference.toNat s.decks then d.finish .service .range .none
        else
          let point : WaitingPoint :=
            ⟨k, if k = .deck then deck.toNat else 0, reference.toNat, 0, waitLimitOf d.metro.site.waitTimer⟩
          ({ d with metro := { d.metro with session := some { s with waiting := some point } } } : Dev).handOff .service

/-- The MPE of a reference in tenths, by the table of R173. -/
def mpeOf (e : Interval) (inService : Bool) (reference : Int) : Int :=
  let base : Int :=
    if reference ≤ 5000 * e.kg then 5 * e.kg
    else if reference ≤ 20000 * e.kg then 10 * e.kg
    else 15 * e.kg
  if inService then 2 * base else base

/-- An error in tenths in 0.1 e units (R173). -/
def errorInE (error : Int) (e : Interval) : Int := roundDiv error e.kg

/-- A point judged from its indication (R173). -/
def judgePoint (s : Session) (w : WaitingPoint) (indication : Int) (time : Nat) : AuditPoint :=
  let reference : Int := 10 * w.reference
  let error := indication - reference
  let mpe := mpeOf s.e s.inService reference
  { kind := w.kind, deck := w.deck, reference := w.reference, indication := indication, error := error, mpe := mpe,
    pass := decide (error.natAbs ≤ mpe), time := time }

/-- A waiting point at a bridge sample: captured and answered, or its wait count raised (R173). -/
def Dev.samplePoint (d : Dev) : Dev :=
  match d.metro.session with
  | none => d
  | some s =>
    match s.waiting with
    | none => d
    | some w =>
      let r := d.lastSample
      if !r.invalid.any ∧ r.range = .within ∧ r.stable then
        let p := judgePoint s w (r.expanded.getD 0) d.clock.count
        let s := { s with points := s.points ++ [p], waiting := none }
        ({ d with metro := { d.metro with session := some s } } : Dev).answerHandedOff .service .ok
          (.point s.points.length p.indication p.error (errorInE p.error s.e) p.mpe p.pass)
      else
        { d with metro :=
          { d.metro with session := some { s with waiting := some { w with waitCount := w.waitCount + 1 } } } }

/-- The first condition of R173 unmet at the last sample, in the order of R174. -/
def Dev.pointUnmet (d : Dev) : Status :=
  let r := d.lastSample
  if r.invalid.any then .cellFault
  else if r.range = .over then .overRange
  else if r.range = .under then .underRange
  else .unstable

/-- AUDIT_POINT_EXPIRY (R174): the wait count has reached the wait limit. -/
def Dev.pointExpiry (d : Dev) : Dev :=
  if !d.active then d
  else
    match d.waitingPoint with
    | some w =>
      match w.waitLimit with
      | some limit => if limit ≤ w.waitCount then d.endPoint d.pointUnmet else d
      | none => d
    | none => d

/-! ## The verdict (R175) -/

/-- The distinct values of a list. -/
def distinct : List Nat → List Nat
  | [] => []
  | x :: t => if t.contains x then distinct t else x :: distinct t

/-- The points of a kind. -/
def Session.ofKind (s : Session) (k : PointKind) : List AuditPoint := s.points.filter fun p => p.kind == k

/-- Whether some reference holds two or more REPEAT points within its MPE (R175). -/
def Session.repeats (s : Session) : Bool :=
  let repeated := s.ofKind .repeated
  repeated.any fun p =>
    let same := (repeated.filter fun q => q.reference == p.reference).map (·.indication)
    decide (2 ≤ same.length) && decide (spanInt same ≤ mpeOf s.e s.inService (10 * p.reference))

/-- Coverage (R175). -/
def Session.covered (s : Session) : Bool :=
  !(s.ofKind .zero).isEmpty && decide (3 ≤ (distinct ((s.ofKind .loadUp).map (·.reference))).length)
    && ((List.range s.decks).all fun k => (s.ofKind .deck).any fun p => p.deck == k + 1)
    && s.repeats

/-- The signed error of greatest magnitude, the earliest where two are equal; 0 with no points (R175). -/
def worstError (points : List AuditPoint) : Int :=
  points.foldl (fun w p => if w.natAbs < p.error.natAbs then p.error else w) 0

/-- The code of AUDIT END (A.3). -/
def codeAuditEnd : Byte := 0x6A#8

/-- AUDIT END (R176): the verdict, the AUDIT_RESULT record and the counters block. -/
def Dev.auditEnd (d : Dev) (tag : Byte) : Dev :=
  d.dispatch .service codeAuditEnd tag true true fun d =>
    match d.metro.session with
    | none => d.finish .service .notInAudit .none
    | some s =>
      if s.waiting.isSome then d.finish .service .pointBusy .none
      else
        let noCoverage := !s.covered
        let pointFail := s.points.any fun p => !p.pass
        let pass := !noCoverage && !pointFail
        let worst := errorInE (worstError s.points) s.e
        let status := if pass then VerStatus.verified else .failed
        let seq := d.metro.lastSeq + 1
        let changed := decide (status ≠ d.metro.status)
        match d.offerTrail
            [.auditResult pass noCoverage pointFail s.inService s.points.length s.e (errorField16 worst) s.begunAt
              s.generation]
            d.metro.generation d.timeOpt [countersSpec d.metro.generation status seq]
            (.auditEnd pass noCoverage pointFail worst seq changed) with
        | .error status => d.finish .service status .none
        | .ok d => { d with metro := { d.metro with session := none, status := status, statusSeq := seq } }

/-! ## Integrity writes (R185) -/

/-- The unarchived sequence number that takes a trail slot, where there is one (R185). -/
def Metrology.unarchivedIn (m : Metrology) (slot : Nat) : Option Nat :=
  (List.range m.unarchived).map (fun i => m.boundary + 1 + i) |>.find? fun s => (s - 1) % 512 == slot

/-- A damaged or lost trail record reported: the status becomes INTEGRITY, raising VERIFY_STATUS where it was not, and a
finding joins the list (R185). -/
def Dev.reportFinding (d : Dev) (f : Finding) : Dev :=
  let d :=
    if d.metro.status = .integrity then d
    else ({ d with metro := { d.metro with status := .integrity } } : Dev).verifyStatus .integrity
  { d with metro := { d.metro with findings := d.metro.findings ++ [f] } }

/-- What a read of a trail slot that was not marked DAMAGED reports to the metrology unit (R185). -/
def Dev.reportTrail (d : Dev) (slot key : Nat) (found : SlotRead) (source : ReadSource) : Dev :=
  match found with
  | .words _ => d
  | .damaged => d.reportFinding ⟨.damagedRecord, key, source⟩
  | .lost =>
    match d.metro.unarchivedIn slot with
    | some s => d.reportFinding ⟨.lostRecord, s, source⟩
    | none => d

/-- The counters block offered alone for the finding at the head, its status sequence unchanged (R185). -/
def Dev.offerCounters (d : Dev) (rest : List Finding) : Dev :=
  match d.offer [d.metro.countersRecord] .nothing with
  | none => d
  | some d => { d with metro := { d.metro with findings := rest } }

/-- The finding at the head of the list offered at a bridge sample (R185). Where spaces are free and no sequence number is left, the
counters block is offered alone, as it is where no space is free (DESIGN CHOICE, log entry 73). -/
def Dev.sampleFindings (d : Dev) : Dev :=
  match d.metro.findings with
  | [] => d
  | f :: rest =>
    let seq := d.metro.lastSeq + 1
    match d.offerTrail [.integrityEvent f.reason f.source f.sequence] d.metro.generation d.timeOpt
        [countersSpec d.metro.generation d.metro.status seq] .nothing with
    | .ok d => { d with metro := { d.metro with findings := rest, statusSeq := seq } }
    | .error .auditFull => d.offerCounters rest
    | .error _ => d

/-! ## Reading and archiving the trail (R181, R182) -/

/-- The code of TRAIL READ (A.3). -/
def codeTrailRead : Byte := 0x6C#8

/-- The slot of a sequence number (R140). -/
def trailSlot (s : Nat) : Nat := (s - 1) % 512

/-- TRAIL READ (R181); a record it newly finds DAMAGED, or lost, is reported (R185). -/
def Dev.trailRead (d : Dev) (tag : Byte) (sequence : Word) : Dev :=
  d.dispatch .service codeTrailRead tag true true fun d =>
    let s := sequence.toNat
    let answer := fun (d : Dev) (status : Status) (record : Option TrailRecord) (key : Option Nat) =>
      let m := d.metro
      d.finish .service status
        (.trail record key (record.isSome && decide (s ≤ m.boundary)) m.lastSeq m.boundary m.unarchived m.free)
    if s = 0 ∨ d.metro.lastSeq < s then answer d .notFound none none
    else
      let (found, read, d) := d.lookup .trail (trailSlot s) s (trailOfWords s)
      let d := d.reportTrail (trailSlot s) s read .read
      match found with
      | .record r => answer d .ok (some r) (some s)
      | .damaged => answer d .damaged none (some s)
      | .absent => answer d .notFound none none

/-- The code of TRAIL ARCHIVE (A.3). -/
def codeTrailArchive : Byte := 0x6D#8

/-- TRAIL ARCHIVE (R182): the boundary moves at admission. -/
def Dev.trailArchive (d : Dev) (tag : Byte) (sequence : Word) : Dev :=
  d.dispatch .service codeTrailArchive tag true true fun d =>
    let n := sequence.toNat
    let m := d.metro
    let seq := m.lastSeq + 1
    if m.lastSeq < n then d.finish .service .range .none
    else if n ≤ m.boundary then d.finish .service .nothingToArchive .none
    else if maxSequence < seq then d.finish .service .auditFull .none
    else
      match d.offer [trailSpec ⟨seq, d.timeOpt, m.generation, .archive n (n - m.boundary) (seq - n)⟩] (.archive seq) with
      | none => d.finish .service .storeBusy .none
      | some d => { d with metro := { d.metro with boundary := n, lastSeq := seq } }

/-! ## Site settings and the clock (R183, R184) -/

/-- The code of SITE SET (A.3). -/
def codeSiteSet : Byte := 0x6E#8

/-- Whether an identifier names a site setting (A.4). -/
def isSettingId (id : Nat) : Bool := decide (1 ≤ id) && decide (id ≤ 44)

/-- The rate a SITE SET gives a link, where it names one (R187). -/
def rateChange (id : Nat) (t : SiteSettings) : Option (Link × Baud) := (rateLink id).map fun l => (l, t.rate l)

/-- The identifier of the ticket threshold (A.4). -/
def thresholdId : Nat := 38

/-- SITE SET (R183): the setting takes its value at admission; a changed ticket threshold is tested at once (R127). R183 refuses a value
outside its setting's range RANGE and does not say which unit answers; the model lets the metrology unit, so that the answer is formed
where the transmit queue holds 6 or 7 frames, and not dropped by R193 (DESIGN CHOICE, log entry 87). -/
def Dev.siteSet (d : Dev) (tag identifier : Byte) (value : Word) : Dev :=
  d.dispatch .service codeSiteSet tag true (isSettingId identifier.toNat) fun d =>
    let id := identifier.toNat
    let old := d.metro.site.get id
    match d.metro.site.set? id value.toInt with
    | none => d.finish .service .range .none
    | some t =>
      if old = value.toInt then d.finish .service .ok .noteNoChange
      else
        let seq := d.metro.lastSeq + 1
        match d.offerTrail [.siteChange id old value.toInt] d.metro.generation d.timeOpt
            [paramSpec d.metro.current d.metro.generation t] (.siteSet seq (rateChange id t)) with
        | .error status => d.finish .service status .none
        | .ok d =>
          let d : Dev := { d with metro := { d.metro with site := t, paramHeld := true } }
          if id = thresholdId then d.testThreshold d.tickets.highestPosted else d

/-- The code of SET TIME (A.3). -/
def codeSetTime : Byte := 0x0A#8

/-- The highest clock count (R197). -/
def maxClock : Nat := 4294967294

/-- SET TIME: the TIME_SET record's own time field holds the new time, and at admission the clock takes it and becomes valid
(R184). The clock is set once more when the record is written (R197, log entry 10). -/
def Dev.setTime (d : Dev) (tag : Byte) (time : Word) : Dev :=
  d.dispatch .console codeSetTime tag true (decide (time.toNat ≤ maxClock)) fun d =>
    let old := d.timeOpt
    let seq := d.metro.lastSeq + 1
    match d.offerTrail [.timeSet old time.toNat] d.metro.generation (some time.toNat) []
        (.setTime time.toNat old seq) with
    | .error status => d.finish .console status .none
    | .ok d => { d with clock := ⟨time.toNat, true⟩ }

/-! ## The meanings -/

/-- AUDIT BEGIN. -/
def execAuditBegin (tag : Byte) (s : State) : Host.Outcome State Fault Refusal := .next { s with dev := s.dev.auditBegin tag }

/-- AUDIT POINT. -/
def execAuditPoint (tag kind deck : Byte) (reference : Word) (s : State) : Host.Outcome State Fault Refusal :=
  .next { s with dev := s.dev.auditPoint tag kind deck reference }

/-- AUDIT_POINT_EXPIRY. -/
def execAuditPointExpiry (s : State) : Host.Outcome State Fault Refusal := .next { s with dev := s.dev.pointExpiry }

/-- AUDIT END. -/
def execAuditEnd (tag : Byte) (s : State) : Host.Outcome State Fault Refusal := .next { s with dev := s.dev.auditEnd tag }

/-- AUDIT ABORT. -/
def execAuditAbort (tag : Byte) (s : State) : Host.Outcome State Fault Refusal := .next { s with dev := s.dev.auditAbort tag }

/-- TRAIL READ. -/
def execTrailRead (tag : Byte) (sequence : Word) (s : State) : Host.Outcome State Fault Refusal :=
  .next { s with dev := s.dev.trailRead tag sequence }

/-- TRAIL ARCHIVE. -/
def execTrailArchive (tag : Byte) (sequence : Word) (s : State) : Host.Outcome State Fault Refusal :=
  .next { s with dev := s.dev.trailArchive tag sequence }

/-- SITE SET. -/
def execSiteSet (tag identifier : Byte) (value : Word) (s : State) : Host.Outcome State Fault Refusal :=
  .next { s with dev := s.dev.siteSet tag identifier value }

/-- SET TIME. -/
def execSetTime (tag : Byte) (time : Word) (s : State) : Host.Outcome State Fault Refusal :=
  .next { s with dev := s.dev.setTime tag time }

end Sys2Proof.Machine
end

