-- ==== Sys2Proof/Machine/Calibration.lean ====
section
/-! DEFINITION. Calibration mode (chapter 9): the switch, CAL ENTER, the edits of the working copy, the zero capture, span and
deck adjustments, the commit and the discard. -/

namespace Sys2Proof.Machine

/-! ## The working copy -/

/-- The histories are due to be emptied at the next sample (R10). -/
def Dev.emptyHistories (d : Dev) : Dev := { d with weighing := { d.weighing with emptyDue := true } }

/-- The eighteen ports. -/
def allPorts : List Nat := List.range 18

/-- A new working copy: the differs mark follows it, ports enter and leave use, and a change of the cell arithmetic empties
the histories (R6, R10, R157). -/
def Dev.editWorking (d : Dev) (new : ParamSet) : Dev :=
  let old := d.inForce
  let d : Dev :=
    { d with metro :=
      { d.metro with working := some new, differs := decide (new.arithmetic ≠ d.metro.current.arithmetic) } }
  let d := Dev.followPorts old new d allPorts
  if old.arithmetic ≠ new.arithmetic then d.emptyHistories else d

/-- The mode ended with nothing kept (R168). -/
def Dev.leaveMode (d : Dev) : Dev :=
  let old := d.inForce
  let differs := d.metro.differs
  let d : Dev := { d with metro := { d.metro with working := none, differs := false } }
  let d := Dev.followPorts old d.metro.current d allPorts
  if differs then d.emptyHistories else d

/-- A service command that needs the mode ACTIVE, acting on the working copy (R156). -/
def Dev.inMode (d : Dev) (act : ParamSet → Dev) : Dev :=
  match d.metro.working with
  | none => d.finish .service .notCalMode .none
  | some w => act w

/-! ## The switch (R153, R169) -/

/-- CALIBRATION_SWITCH: the level is recorded; opening while ACTIVE ends the mode as a discard and raises CAL_ABORTED. -/
def Dev.calibrationSwitch (d : Dev) (closed : Bool) : Dev :=
  let d : Dev := { d with pins := { d.pins with switchClosed := closed } }
  if !d.active then d
  else
    let was := d.metro.switchClosed
    let d : Dev := { d with metro := { d.metro with switchClosed := closed } }
    if was && !closed && d.calActive then
      let differs := d.metro.differs
      let d :=
        match d.metro.zeroCapture with
        | some _ =>
          ({ d with metro := { d.metro with zeroCapture := none } } : Dev).finish .service .switchOpen .none
        | none => d
      d.leaveMode.raise .service (.calAborted differs)
    else d

/-! ## CAL ENTER (R154) -/

/-- The code of CAL ENTER (A.3). -/
def codeCalEnter : Byte := 0x61#8

/-- The tracking count at 0 (R35, R155). -/
def Dev.stopTracking (d : Dev) : Dev := { d with weighing := { d.weighing with tracking := 0 } }

/-- CAL ENTER: the checks in the order of R154; the working copy takes the current set, and an OPEN pass is marked (R64). -/
def Dev.calEnter (d : Dev) (tag : Byte) : Dev :=
  d.dispatch .service codeCalEnter tag true true fun d =>
    if d.calActive then d.finish .service .calMode .none
    else if !d.metro.switchClosed then d.finish .service .switchOpen .none
    else if d.bridge.request.isSome then d.finish .service .bridgeBusy .none
    else if d.inSession then d.finish .service .audit .none
    else
      let d : Dev := { d with metro := { d.metro with working := some d.metro.current, differs := false } }
      ((d.markOpen fun m => { m with calMode := true }).stopTracking).finish .service .ok
        (.calEnter d.metro.generation d.metro.status)

/-! ## Edits (R157, R158) -/

/-- The code of CAL SET (A.3). -/
def codeCalSet : Byte := 0x62#8

/-- Whether an identifier names a parameter (A.4). -/
def isParamId (id : Nat) : Bool := decide (1 ≤ id) && decide (id ≤ 71)

/-- CAL SET: the value replaces the parameter's in the working copy. -/
def Dev.calSet (d : Dev) (tag identifier : Byte) (value : Word) : Dev :=
  d.dispatch .service codeCalSet tag true (isParamId identifier.toNat) fun d =>
    d.inMode fun w =>
      match w.set? identifier.toNat value.toInt with
      | none => d.finish .service .range .none
      | some new => (d.editWorking new).finish .service .ok (.calSet (w.get identifier.toNat) value.toInt)

/-- The code of MAP SET (A.3). -/
def codeMapSet : Byte := 0x63#8

/-- Whether another position of a set sends to a port (R158). -/
def ParamSet.sentElsewhere (p : ParamSet) (i port : Nat) : Bool :=
  (List.range 16).any fun j => j != i && (p.at j).map == some port

/-- MAP SET: a position sent to a port or to ABSENT, its offset, gain and corner factor unset (R158). The OK of one that changes nothing
carries the port the position sends to, as one that changes it carries the old port (DESIGN CHOICE, log entry 79). -/
def Dev.mapSet (d : Dev) (tag deck corner port : Byte) : Dev :=
  match positionOfBytes deck corner, portOfByte port with
  | some i, some target =>
    d.dispatch .service codeMapSet tag true true fun d =>
      d.inMode fun w =>
        let old := (w.at i).map
        let taken := match target with | some p => w.sentElsewhere i p | none => false
        if taken then d.finish .service .duplicatePort .none
        else if old = target then d.finish .service .ok (.mapSet old)
        else (d.editWorking (w.setAt i ⟨target, none, none, none⟩)).finish .service .ok (.mapSet old)
  | _, _ => d.dispatch .service codeMapSet tag true false id

/-! ## CAL ZERO (R159 to R161) -/

/-- The code of CAL ZERO (A.3). -/
def codeCalZero : Byte := 0x64#8

/-- The required positions that CAL ZERO is refused for: those the last completed sample could not take (R159). A required position
that this sample did not read, a MAP SET or a change of layout having come since, is judged with the ports as they stand (log
entry 50). -/
def Dev.faultyPositions (d : Dev) (w : ParamSet) : List Nat :=
  w.requiredList.filter fun i =>
    match d.lastSample.cellValues.find? fun v => v.pos == i && v.port == (w.at i).map with
    | some v => v.faulty
    | none => d.positionFaulty (w.at i)

/-- CAL ZERO: the checks in the order of R159; the capture is set and the slot stays EXECUTING. -/
def Dev.calZero (d : Dev) (tag : Byte) : Dev :=
  d.dispatch .service codeCalZero tag true true fun d =>
    d.inMode fun w =>
      if d.bridge.state ≠ .empty then d.finish .service .notEmpty .none
      else if d.faultyPositions w ≠ [] then d.finish .service .cellFault (.positions (d.faultyPositions w))
      else if d.lastSample.saturated then d.finish .service .overRange .none
      else if !d.lastSample.stable then d.finish .service .unstable .none
      else { d with metro := { d.metro with zeroCapture := some ⟨0, Vector.replicate 16 0⟩ } }

/-- The raw value handed off for a position, 0 where there is none. -/
def rawOf (hs : List HandOff) (i : Nat) : Int :=
  match hs.find? fun h => h.pos == i with
  | some h => h.raw.getD 0
  | none => 0

/-- Whether a hand-off carries the INVALID mark: its port in FAULT or no value (R22, R160). -/
def HandOff.invalid (h : HandOff) : Bool := h.state == .fault || h.raw.isNone

/-- The zero capture at a bridge sample, from what the weighing unit hands off (R160). Where a port in FAULT or without a value and a
saturated sample come at the same sample, the manual gives no order; the model answers CELL_FAULT (DESIGN CHOICE, log entry 52). -/
def Dev.sampleZero (d : Dev) (hs : List HandOff) : Dev :=
  match d.metro.zeroCapture with
  | none => d
  | some z =>
    if 100 ≤ z.count then d
    else if d.bridge.state ≠ .empty then d.endZeroCapture .notEmpty
    else if hs.any (·.invalid) then d.endZeroCapture .cellFault
    else if d.lastSample.saturated then d.endZeroCapture .overRange
    else
      let sums := Vector.ofFn fun (i : Fin 16) => z.sums[i.val] + rawOf hs i.val
      { d with metro := { d.metro with zeroCapture := some ⟨z.count + 1, sums⟩ } }

/-- CAL_ZERO_COMPLETE (R161): at a count of 100 the offsets are set, Z_op becomes 0 and CAL ZERO is answered. -/
def Dev.calZeroComplete (d : Dev) : Dev :=
  if !d.active then d
  else
    match d.metro.zeroCapture, d.metro.working with
    | some z, some w =>
      if z.count < 100 then d
      else
        let offsets := w.requiredList.map fun i => (i, roundDiv (z.sums[i]?.getD 0) 100)
        let new := offsets.foldl (fun p o => p.setAt o.1 { p.at o.1 with offset := some o.2 }) w
        let d := (d.editWorking new).emptyHistories
        let d : Dev :=
          { d with metro := { d.metro with zeroCapture := none },
                   axle := d.axle.shift (0 - d.weighing.zOp),
                   weighing := { d.weighing with zOp := 0 } }
        d.finish .service .ok (.offsets offsets)
    | _, _ => d

/-! ## CAL SPAN and CAL DECK (R162, R163) -/

/-- The refusals of CAL SPAN and CAL DECK for a reference in tenths, in the order of R162, before the new values. -/
def Dev.spanRefusal (d : Dev) (reference : Int) : Option Status :=
  let r := d.lastSample
  if d.bridge.state ≠ .standing then some .notStanding
  else if r.invalid.any then some .cellFault
  else if r.range = .over then some .overRange
  else if !r.stable then some .unstable
  else if r.filtered ≤ 0 ∨ ¬ (4 * r.filtered ≤ 5 * reference ∧ 4 * reference ≤ 5 * r.filtered) then some .adjustRange
  else none

/-- A factor scaled by a reference over a reading: times R, divided by F and rounded (R162). -/
def scaleFactor (old : Nat) (reference filtered : Int) : Int := roundDiv (old * reference) filtered.toNat

/-- The code of CAL SPAN (A.3). -/
def codeCalSpan : Byte := 0x65#8

/-- The new gains of a span: each required position with its old and its new gain. -/
def spanGains (w : ParamSet) (reference filtered : Int) : List (Nat × Nat × Int) :=
  w.requiredList.filterMap fun i => (w.at i).gain.map fun g => (i, g, scaleFactor g reference filtered)

/-- CAL SPAN: every required gain scaled by the reference over the filtered gross. -/
def Dev.calSpan (d : Dev) (tag : Byte) (mass : Word) : Dev :=
  d.dispatch .service codeCalSpan tag true (massInRange mass) fun d =>
    d.inMode fun w =>
      let reference : Int := 10 * mass.toNat
      let filtered := d.lastSample.filtered
      match d.spanRefusal reference with
      | some status => d.finish .service status .none
      | none =>
        let gains := spanGains w reference filtered
        if gains.any fun g => !inRange 1 16777215 g.2.2 then d.finish .service .adjustRange .none
        else
          let new := gains.foldl (fun p g => p.setAt g.1 { p.at g.1 with gain := some g.2.2.toNat }) w
          (d.editWorking new).emptyHistories.finish .service .ok
            (.scaled reference filtered (gains.map fun g => (g.1, g.2.1, g.2.2.toNat)))

/-- The code of CAL DECK (A.3). -/
def codeCalDeck : Byte := 0x66#8

/-- The new corner factors of a deck: each of its required positions with its old and its new factor. -/
def deckCorners (w : ParamSet) (deck : Nat) (reference filtered : Int) : List (Nat × Nat × Int) :=
  (w.requiredList.filter fun i => i / 4 + 1 == deck).filterMap fun i =>
    (w.at i).corner.map fun k => (i, k, scaleFactor k reference filtered)

/-- CAL DECK: one deck's corner factors scaled; a deck beyond the working copy's D is RANGE. -/
def Dev.calDeck (d : Dev) (tag deck : Byte) (mass : Word) : Dev :=
  d.dispatch .service codeCalDeck tag true
      (decide (1 ≤ deck.toNat) && decide (deck.toNat ≤ 4) && massInRange mass) fun d =>
    d.inMode fun w =>
      let reference : Int := 10 * mass.toNat
      let filtered := d.lastSample.filtered
      if w.decks < deck.toNat then d.finish .service .range .none
      else
        match d.spanRefusal reference with
        | some status => d.finish .service status .none
        | none =>
          let corners := deckCorners w deck.toNat reference filtered
          if corners.any fun g => !inRange 58982 72090 g.2.2 then d.finish .service .adjustRange .none
          else
            let new := corners.foldl (fun p g => p.setAt g.1 { p.at g.1 with corner := some g.2.2.toNat }) w
            (d.editWorking new).emptyHistories.finish .service .ok
              (.scaled reference filtered (corners.map fun g => (g.1, g.2.1, g.2.2.toNat)))

/-! ## CAL EXIT (R164 to R168) -/

/-- The code of CAL EXIT (A.3). -/
def codeCalExit : Byte := 0x67#8

/-- Whether a position's parameters are complete (R164). -/
def PosParam.complete (p : PosParam) : Bool := p.map.isSome && p.offset.isSome && p.gain.isSome && p.corner.isSome

/-- The first required position that is incomplete (R164). -/
def ParamSet.incomplete? (p : ParamSet) : Option Nat := p.requiredList.find? fun i => !(p.at i).complete

/-- Whether Max suits e: a whole multiple, 500 to 10,000 intervals, at most 200,000 kg (R164). -/
def ParamSet.maxSuits (p : ParamSet) : Bool :=
  p.max % p.e.kg == 0 && decide (500 ≤ p.max / p.e.kg) && decide (p.max / p.e.kg ≤ 10000) && decide (p.max ≤ 200000)

/-- The trail records of a commit: the header and one PARAM record for each changed parameter (R165). -/
def commitBodies (m : Metrology) (new : ParamSet) : List TrailBody :=
  let changes := m.current.diff new
  .calCommit m.current.max m.current.e m.status new.max new.e changes.length m.generation
    :: changes.map fun c => .param c.1 c.2.1 c.2.2

/-- CAL EXIT COMMIT (R164 to R166). -/
def Dev.calExitCommit (d : Dev) (tag : Byte) : Dev :=
  d.dispatch .service codeCalExit tag true true fun d =>
    d.inMode fun w =>
      let params := (d.metro.current.diff w).length
      let generation := d.metro.generation + 1
      let header := d.metro.lastSeq + 1
      match w.incomplete? with
      | some i => d.finish .service .incomplete (.incomplete i)
      | none =>
        if !w.maxSuits then d.finish .service .range .none
        else if params = 0 then d.leaveMode.finish .service .ok .noteNoChange
        else if !d.clock.valid then d.finish .service .timeUnset .none
        else if 65535 ≤ d.metro.generation then d.finish .service .generationLimit .none
        else
          match d.offerTrail (commitBodies d.metro w) generation d.timeOpt
              [paramSpec w generation d.metro.site, countersSpec generation .pending header]
              (.commit generation params header) with
          | .error status => d.finish .service status .none
          | .ok d =>
            let lower := decide (w.max < d.metro.current.max)
            let d : Dev :=
              { d with metro :=
                { d.metro with current := w, working := none, differs := false, generation := generation,
                               status := .pending, statusSeq := header, paramHeld := true } }
            (if lower then d.changeZero 0 else d).stopTracking

/-- CAL EXIT DISCARD (R168). -/
def Dev.calExitDiscard (d : Dev) (tag : Byte) : Dev :=
  d.dispatch .service codeCalExit tag true true fun d => d.inMode fun _ => d.leaveMode.finish .service .ok .none

/-! ## The meanings -/

/-- CALIBRATION_SWITCH. -/
def execCalibrationSwitch (closed : Bool) (s : State) : Host.Outcome State Fault Refusal :=
  .next { s with dev := s.dev.calibrationSwitch closed }

/-- CAL ENTER. -/
def execCalEnter (tag : Byte) (s : State) : Host.Outcome State Fault Refusal := .next { s with dev := s.dev.calEnter tag }

/-- CAL SET. -/
def execCalSet (tag identifier : Byte) (value : Word) (s : State) : Host.Outcome State Fault Refusal :=
  .next { s with dev := s.dev.calSet tag identifier value }

/-- MAP SET. -/
def execMapSet (tag deck corner port : Byte) (s : State) : Host.Outcome State Fault Refusal :=
  .next { s with dev := s.dev.mapSet tag deck corner port }

/-- CAL ZERO. -/
def execCalZero (tag : Byte) (s : State) : Host.Outcome State Fault Refusal := .next { s with dev := s.dev.calZero tag }

/-- CAL_ZERO_COMPLETE. -/
def execCalZeroComplete (s : State) : Host.Outcome State Fault Refusal := .next { s with dev := s.dev.calZeroComplete }

/-- CAL SPAN. -/
def execCalSpan (tag : Byte) (mass : Word) (s : State) : Host.Outcome State Fault Refusal :=
  .next { s with dev := s.dev.calSpan tag mass }

/-- CAL DECK. -/
def execCalDeck (tag deck : Byte) (mass : Word) (s : State) : Host.Outcome State Fault Refusal :=
  .next { s with dev := s.dev.calDeck tag deck mass }

/-- CAL EXIT with COMMIT. -/
def execCalExitCommit (tag : Byte) (s : State) : Host.Outcome State Fault Refusal :=
  .next { s with dev := s.dev.calExitCommit tag }

/-- CAL EXIT with DISCARD. -/
def execCalExitDiscard (tag : Byte) (s : State) : Host.Outcome State Fault Refusal :=
  .next { s with dev := s.dev.calExitDiscard tag }

end Sys2Proof.Machine
end

