-- ==== Sys2Proof/Machine/StoreControl.lean ====
section
/-! DEFINITION. The store controller (chapter 8) as it writes and reads on its own: the report of a written operation, record
and scrub writes, the patrol with its repairs, and STORE COUNTS. -/

namespace Sys2Proof.Machine

/-! ## Reports of written operations (R144) -/

/-- The kind of CLOCK_INVALID. -/
def isClockInvalid (p : Pending) : Bool := match p.cause with | .clockInvalid _ => true | _ => false

/-- The clock set once more as the record of SET TIME is written, and a pending CLOCK_INVALID removed (R197, R198; log entry 10). -/
def Dev.clockSet (d : Dev) (time : Nat) : Dev :=
  ({ d with clock := ⟨time, true⟩ } : Dev).onLink .console fun k =>
    { k with causes := k.causes.filter fun p => !isClockInvalid p }

/-- A link's rate given by a SITE SET, to take effect once so many service responses have been sent (R187). -/
def Dev.giveRate (d : Dev) (rate : Option (Link × Baud)) (count : Nat) : Dev :=
  match rate with
  | some (l, r) => d.onLink l fun k => { k with newRates := k.newRates ++ [(r, count)] }
  | none => d

/-- Whether the command in a link's slot will be answered: no break has taken its response (R190). -/
def Dev.willAnswer (d : Dev) (l : Link) : Bool := (d.links.get l).slot.any fun s => !s.silent

/-- An operation reported written: its block answers, or reports on (R41, R107, R123, R129, R166, R176, R182 to R184). -/
def Dev.report (d : Dev) (r : Done) : Dev :=
  match r with
  | .nothing => d
  | .weigh result causes ticket =>
    let d := d.raiseAll .console causes
    let d := match ticket with | some n => d.postTicket n | none => d
    d.weighReport result
  | .answer link status body => d.finish link status body
  | .ticketClear => d.finish .inventory .ok (.number d.tickets.queue.length)
  | .post n => { d with tickets := d.tickets.post n }
  | .setTime new old seq => (d.clockSet new).finish .console .ok (.timeSet old seq)
  | .siteSet seq rate =>
    let answered := d.willAnswer .service
    let d := d.finish .service .ok (.number seq)
    d.giveRate rate (if answered then d.links.service.toSend else 0)
  | .commit g p s => (d.finish .service .ok (.commit g p s)).verifyStatus .commit
  | .auditEnd pass nc pf worst seq changed =>
    let d := d.finish .service .ok (.auditEnd pass nc pf worst seq)
    if changed then d.verifyStatus .audit else d
  | .archive seq => d.finish .service .ok (.archive seq d.metro.unarchived d.metro.free)

/-! ## Writes (R137, R144) -/

/-- The controller writes its queue: until the power-fail warning, RESTART's drain included (R145, R146). -/
def Dev.writing (d : Dev) : Bool := d.active || d.phase == .draining

/-- The head of the queue gone, and the waiting records moved up (R143, R144). -/
def Store.pop (s : Store) : Store :=
  let all := s.queue.drop 1 ++ s.waiting
  { s with queue := all.take 16, waiting := all.drop 16 }

/-- The slot index's entry for a record just written (R144). -/
def writtenEntry (spec : RecordSpec) : IndexEntry := if spec.kind = 0 then indexDefault else ⟨.valid, spec.key⟩

/-- The slot index after a record is written: it lists archive and trail slots. -/
def Store.written (s : Store) (spec : RecordSpec) : Store :=
  if spec.region.paired then s else s.setIndex spec.region spec.slot (writtenEntry spec)

/-- STORE_RECORD_WRITTEN: the record at the head is written whole, its slot indexed, and its operation reported where it is
the last record (R144). -/
def Dev.recordWritten (d : Dev) : Dev :=
  if !d.writing then d
  else
    match d.store.queue with
    | .record spec copy count report :: _ =>
      let d : Dev :=
        { d with nv := Memory.writeAll d.nv (recordWords spec copy count), store := (d.store.written spec).pop }
      match report with
      | some r => d.report r
      | none => d
    | _ => d

/-- A word scrubbed: written back where it still reads CORRECTED or CORRECTED_CHECK (R137). -/
def scrubWord (nv : Memory) (address : Nat) : Memory :=
  match readClass (Memory.read nv address) with
  | (.corrected, some w) => Memory.write nv address (encodeWord w)
  | (.correctedCheck, some w) => Memory.write nv address (encodeWord w)
  | _ => nv

/-! ## The patrol (R150, R151) -/

/-- Whether a queue entry writes into a slot. -/
def QueueEntry.hits (e : QueueEntry) (r : Region) (slot : Nat) : Bool :=
  match e with
  | .record spec _ _ _ => spec.region == r && spec.slot == slot
  | .scrub a => slotOfAddress a == slotNumber r slot

/-- Whether a slot has a write queued or being written (R150). -/
def Store.busy (s : Store) (r : Region) (slot : Nat) : Bool := (s.queue ++ s.waiting).any (·.hits r slot)

/-- The patrol position moved to the next slot (R150). -/
def Store.advance (s : Store) : Store :=
  if s.patrol + 1 < storeSlots then { s with patrol := s.patrol + 1 }
  else { s with patrol := 0, sweeps := satInc 65535 s.sweeps }

/-- The record of a paired slot as its owner's state gives it; a removal where the owner holds none (R151). A visit that its
capture is removing stands in its slot until the removal is reported (R84), and its latest record is that removal. -/
def Dev.ownerRecord (d : Dev) (r : Region) (slot : Nat) : RecordSpec :=
  match r with
  | .parameters => if d.metro.paramHeld then d.metro.paramRecord else removal r slot
  | .counters => d.metro.countersRecord
  | .visits =>
    match d.yard.visits.find? fun v => v.slot == slot with
    | some v => if d.yard.leaving v.number then removal r slot else visitSpec v none
    | none => removal r slot
  | .tares =>
    match d.tickets.tares.find? fun e => e.slot == slot with
    | some e => tareSpec e
    | none => removal r slot
  | .queue =>
    match d.tickets.queue.find? fun e => e.slot == slot with
    | some e => queueSpec slot e.number e.ticket
    | none => removal r slot
  | _ => removal r slot

/-- A repair write entered where there is a space; otherwise the next sweep finds the damage again (R151). -/
def Dev.repair (d : Dev) (r : Region) (slot : Nat) : Dev :=
  match d.offer [d.ownerRecord r slot] .nothing with
  | some d => d
  | none => d

/-- The copy a queue entry writes of a slot. -/
def QueueEntry.copyFor (e : QueueEntry) (r : Region) (slot : Nat) : Option Nat :=
  match e with
  | .record spec copy _ _ => if spec.region == r && spec.slot == slot then some copy else none
  | .scrub _ => none

/-- The current copy of a paired slot: the one its first queued write does not take, or where none is queued the one its next
write will not take (R141). -/
def Store.currentCopy (s : Store) (r : Region) (slot : Nat) : Nat :=
  match (s.queue ++ s.waiting).findSome? fun e => e.copyFor r slot with
  | some copy => 1 - copy
  | none => 1 - (s.pairAt r slot).nextCopy

/-- Whether an address lies in the current copy of a paired slot. -/
def Store.inCurrentCopy (s : Store) (address : Nat) : Bool :=
  let (r, slot) := slotOfNumber (slotOfAddress address)
  r.paired && copyOfAddress address == s.currentCopy r slot

/-- SCRUB_WRITE: the scrub at the head of the queue is written or dropped (R137). One dropped because its word now reads DOUBLE in
the current copy of a paired slot enters the slot's repair, as any read after start-up does; the read is not counted again and
raises no STORE_FAULT (R137, R151; log entry 51). -/
def Dev.scrubWrite (d : Dev) : Dev :=
  if !d.writing then d
  else
    match d.store.queue with
    | .scrub address :: _ =>
      let double := (readClass (Memory.read d.nv address)).1 == .double
      let d : Dev := { d with nv := scrubWord d.nv address, store := d.store.pop }
      if double && d.phase == .running && d.store.inCurrentCopy address then
        d.repair (slotOfNumber (slotOfAddress address)).1 (slotOfNumber (slotOfAddress address)).2
      else d
    | _ => d

/-- Whether any word of a copy reads DOUBLE. -/
def anyDouble (reads : List WordRead) : Bool := reads.any fun w => w.cls == .double

/-- The patrol's read of a paired slot: both copies are counted and scrubbed, the current copy raises STORE_FAULT and is
repaired (R150, R151). Every scrub, copy 0's before copy 1's, is entered before the repair, so that the scrubs may take the last free
space; the rules give no order (DESIGN CHOICE, log entry 69). -/
def Dev.patrolPaired (d : Dev) (r : Region) (slot : Nat) : Dev :=
  let current := d.store.currentCopy r slot
  let reads0 := readCopy d.nv r slot 0
  let reads1 := readCopy d.nv r slot 1
  let d := d.noteReads r slot .patrol (current == 0) (keyOfReads reads0) reads0
  let d := d.noteReads r slot .patrol (current == 1) (keyOfReads reads1) reads1
  if anyDouble (if current = 0 then reads0 else reads1) then d.repair r slot else d

/-- The patrol's read of an archive or trail slot: a record it newly finds DAMAGED is marked in the index and, in the trail,
reported; a completion word it finds DOUBLE leaves the slot ABSENT and, in the trail slot of an unarchived number not marked
DAMAGED, is reported at every sweep (R138, R150, R185; log entry 26). A slot the index gives as ABSENT stays ABSENT where its first word
or an inner word now reads DOUBLE beside a sound completion word, also where it was stale at the scan (DESIGN CHOICE, log entry 77). -/
def Dev.patrolSingle (d : Dev) (r : Region) (slot : Nat) : Dev :=
  let e := d.store.indexAt r slot
  if e.cls = .valid then
    let (found, d) := d.readSlot r slot .patrol
    if r = .trail then d.reportTrail slot e.key found .patrol else d
  else
    let reads := readCopy d.nv r slot 0
    let d := d.noteReads r slot .patrol true (keyOfReads reads) reads
    if findSlot reads = .lost then
      let d : Dev := { d with store := d.store.markRead r slot .lost }
      if r = .trail ∧ e.cls ≠ .damaged then d.reportTrail slot e.key .lost .patrol else d
    else d

/-- PATROL (R150): the slot at the patrol position is read unless a write to it is queued, and the position advances. -/
def Dev.patrolStep (d : Dev) : Dev :=
  if d.phase ≠ .running then d
  else
    let (r, slot) := slotOfNumber d.store.patrol
    let d : Dev :=
      if d.store.busy r slot then d
      else if r.paired then d.patrolPaired r slot
      else d.patrolSingle r slot
    { d with store := d.store.advance }

/-! ## STORE COUNTS (R152) -/

/-- What STORE COUNTS returns. -/
def Store.condition (s : Store) : StoreReport :=
  { corrected := s.corrected, uncorrectable := s.uncorrectable, queued := s.queue.length,
    longEntering := !s.waiting.isEmpty, waiting := s.waiting.length, counts := s.counts,
    damaged := (s.index.filter fun e => e.2.cls == .damaged).length, blankStart := s.blankStart, patrol := s.patrol,
    sweeps := s.sweeps }

/-- The code of STORE COUNTS (A.3). -/
def codeStoreCounts : Byte := 0x70#8

/-- STORE COUNTS: a clear flag of 1 clears the two counts after the response is formed. -/
def Dev.storeCounts (d : Dev) (tag clear : Byte) : Dev :=
  match flagOfByte clear with
  | none => d.dispatch .service codeStoreCounts tag true false id
  | some c =>
    d.dispatch .service codeStoreCounts tag true true fun d =>
      let d := d.finish .service .ok (.store d.store.condition)
      if c then { d with store := { d.store with corrected := 0, uncorrectable := 0 } } else d

/-! ## The meanings -/

/-- STORE_RECORD_WRITTEN. -/
def execStoreRecordWritten (s : State) : Host.Outcome State Fault Refusal := .next { s with dev := s.dev.recordWritten }

/-- SCRUB_WRITE. -/
def execScrubWrite (s : State) : Host.Outcome State Fault Refusal := .next { s with dev := s.dev.scrubWrite }

/-- PATROL. -/
def execPatrol (s : State) : Host.Outcome State Fault Refusal := .next { s with dev := s.dev.patrolStep }

/-- STORE COUNTS. -/
def execStoreCounts (tag clear : Byte) (s : State) : Host.Outcome State Fault Refusal :=
  .next { s with dev := s.dev.storeCounts tag clear }

end Sys2Proof.Machine
end

