-- ==== Sys2Proof/Machine/LinkUnit.lean ====
section
/-! DEFINITION. The link unit (chapter 11): STATUS, frames it cannot dispatch, breaks, sent responses, rate changes, and the
clock's second. -/

namespace Sys2Proof.Machine

/-! ## STATUS (R196) -/

/-- The code of STATUS (A.3). -/
def codeStatus : Byte := 0x01#8

/-- STATUS: the pending cause of highest priority is taken and removed; NONE where there is none. -/
def Dev.status (d : Dev) (link : Link) (tag : Byte) : Dev :=
  d.dispatch link codeStatus tag true true fun d =>
    let k := d.links.get link
    match k.causes with
    | [] => d.finish link .none (.status none 0 k.errors d.clock.count d.clock.valid)
    | p :: t =>
      (d.onLink link fun k => { k with causes := t }).finish link .ok
        (.status (some p) t.length k.errors d.clock.count d.clock.valid)

/-! ## Frames that are not commands of the link (R189, R192) -/

/-- The body lengths a link's command allows, none for a code the link does not have (R191, A.3). -/
def bodyLengths (link : Link) (code : Nat) : List Nat :=
  match link, code with
  | _, 0x01 => [2]
  | .console, 0x02 => [23]
  | .console, 0x03 => [6]
  | .console, 0x04 => [4]
  | .console, 0x05 => [4]
  | .console, 0x06 => [5, 20]
  | .console, 0x07 => [19]
  | .console, 0x08 => [19]
  | .console, 0x09 => [2]
  | .console, 0x0A => [6]
  | .console, 0x0B => [7]
  | .console, 0x0C => [6]
  | .lane, 0x21 => [20]
  | .lane, 0x22 => [2]
  | .lane, 0x23 => [2]
  | .lane, 0x24 => [3]
  | .inventory, 0x0B => [7]
  | .inventory, 0x41 => [3]
  | .inventory, 0x42 => [6]
  | .inventory, 0x43 => [4]
  | .service, 0x61 => [2]
  | .service, 0x62 => [7]
  | .service, 0x63 => [5]
  | .service, 0x64 => [2]
  | .service, 0x65 => [6]
  | .service, 0x66 => [7]
  | .service, 0x67 => [3]
  | .service, 0x68 => [8]
  | .service, 0x69 => [2]
  | .service, 0x6A => [2]
  | .service, 0x6B => [2]
  | .service, 0x6C => [6]
  | .service, 0x6D => [6]
  | .service, 0x6E => [7]
  | .service, 0x6F => [3]
  | .service, 0x70 => [3]
  | .service, 0x71 => [2]
  | _, _ => []

/-- UNKNOWN_COMMAND_FRAME: a complete frame whose code the link does not have, or whose length its layout does not allow, is
INVALID; a CAL EXIT whose kind is neither COMMIT nor DISCARD is RANGE. A body that is another row's command brings nothing
here (R192). -/
def Dev.unknownFrame (d : Dev) (link : Link) (body : List Byte) : Dev :=
  match body with
  | code :: tag :: rest =>
    if !(bodyLengths link code.toNat).contains body.length then d.dispatch link code tag false true id
    else if code = codeCalExit ∧ rest ≠ [1#8] ∧ rest ≠ [2#8] then d.dispatch link code tag true false id
    else d
  | _ => d

/-- A frame discarded: the error count is raised and the assembly hunts (R189). -/
def Dev.discardFrame (d : Dev) (link : Link) : Dev :=
  d.onLink link fun k => { k with assembly := .hunting, errors := satInc 65535 k.errors }

/-- FRAME_DISCARDED: bytes that end in a bad length or a failed check (R189). -/
def Dev.frameDiscarded (d : Dev) (link : Link) (bytes : List Byte) : Dev :=
  let k := d.links.get link
  if d.accepting && !k.breakHeld && bringDiscard k.assembly bytes then d.discardFrame link else d

/-- FRAME_GAP_TIMEOUT: bytes that leave a frame partly received, and a gap (R189). -/
def Dev.frameGap (d : Dev) (link : Link) (bytes : List Byte) : Dev :=
  let k := d.links.get link
  if d.accepting && !k.breakHeld && leavePartial k.assembly bytes then d.discardFrame link else d

/-! ## Breaks (R42, R160, R174, R190) -/

/-- What a break empties of its link: the partial frame, the transmit queue and the causes (R190). -/
def LinkState.broken (k : LinkState) : LinkState :=
  { k with assembly := .hunting, breakHeld := true, tx := [], waiting := [], causes := [] }

/-- The slot of a link whose command is an admitted operation: it stays EXECUTING, and its response will not be sent. -/
def LinkState.silenced (k : LinkState) : LinkState :=
  { k with slot := k.slot.map fun s => { s with silent := true } }

/-- A break on the lane link: a WEIGH in WAITING ends, one in RECORDING loses its response, a held release is not applied. -/
def Dev.breakLane (d : Dev) : Dev :=
  let d := d.onLink .lane fun k => { k with slot := none, handedOff := none }
  match d.bridge.state with
  | .waiting => (d.onBridge fun b => { b with request := none }).changeBridge .standing
  | .recording => d.onBridge fun b => { b with heldRelease := false }
  | _ => d

/-- The counts of service responses still to be sent before a RESTART or a link's new rate takes effect, changed (R187, R199). -/
def Dev.onCounts (d : Dev) (f : Nat → Nat) : Dev :=
  { d with restartPending := d.restartPending.map f,
           links := d.links.mapAll fun k => { k with newRates := k.newRates.map fun x => (x.1, f x.2) } }

/-- A break on the service link: a zero capture and a waiting point end; the mode and the session stand; a RESTART or a rate that
waited for a response waits no more (R190, R199; log entry 37 for the rate). -/
def Dev.breakService (d : Dev) : Dev :=
  let d := (d.onCounts fun _ => 0).clearPoint.onLink .service fun k => { k with handedOff := none }
  match d.metro.zeroCapture with
  | some _ =>
    ({ d with metro := { d.metro with zeroCapture := none } } : Dev).onLink .service fun k => { k with slot := none }
  | none => d.onLink .service LinkState.silenced

/-- The links transmit while they serve their masters, RESTART's drain included (R199, R200). -/
def Dev.transmitting (d : Dev) : Bool := d.phase == .running || d.phase == .draining

/-- BREAK (R190): taken while the links transmit, so that in RESTART's drain too it empties the transmit queue and takes the
response of an operation still to be written (R42, R199). -/
def Dev.lineBreak (d : Dev) (link : Link) : Dev :=
  if !d.transmitting then d
  else
    let d := d.onLink link LinkState.broken
    match link with
    | .lane => d.breakLane
    | .service => d.breakService
    | l => d.onLink l LinkState.silenced

/-- LINE_RETURNS_TO_MARKING: the assembly is no longer held (R190). -/
def Dev.lineMarks (d : Dev) (link : Link) : Dev := d.onLink link fun k => { k with breakHeld := false }

/-! ## Responses and rates (R187, R193) -/

/-- The head of a transmit queue gone, and the responses that wait moved up (R193). -/
def LinkState.sent (k : LinkState) : LinkState :=
  let all := k.tx.drop 1 ++ k.waiting
  { k with tx := all.take maxFrames, waiting := all.drop maxFrames }

/-- RESPONSE_FRAME_SENT: the response at the head of a transmit queue leaves it (R193); on the service link the counts of R187 and
R199 fall by one. -/
def Dev.responseSent (d : Dev) (link : Link) : Dev :=
  if d.transmitting ∧ (d.links.get link).tx ≠ [] then
    let d := d.onLink link LinkState.sent
    if link = .service then d.onCounts fun n => n - 1 else d
  else d

/-- LINK_RATE_CHANGE: a rate given by a SITE SET takes effect once that SITE SET's response has been sent (R187). -/
def Dev.rateChange (d : Dev) (link : Link) : Dev :=
  match (d.links.get link).newRates with
  | (r, 0) :: rest =>
    if d.transmitting then d.onLink link fun k => { k with rate := r, newRates := rest, assembly := .hunting } else d
  | _ => d

/-! ## The clock (R197) -/

/-- CLOCK_SECOND: the count is raised, holding at its maximum; it runs in every phase. -/
def Dev.clockSecond (d : Dev) : Dev := { d with clock := { d.clock with count := satInc maxClock d.clock.count } }

/-! ## The meanings -/

/-- STATUS. -/
def execStatus (link : Link) (tag : Byte) (s : State) : Host.Outcome State Fault Refusal :=
  .next { s with dev := s.dev.status link tag }

/-- UNKNOWN_COMMAND_FRAME. -/
def execUnknownCommandFrame (link : Link) (body : List Byte) (s : State) : Host.Outcome State Fault Refusal :=
  .next { s with dev := s.dev.unknownFrame link body }

/-- FRAME_DISCARDED. -/
def execFrameDiscarded (link : Link) (bytes : List Byte) (s : State) : Host.Outcome State Fault Refusal :=
  .next { s with dev := s.dev.frameDiscarded link bytes }

/-- FRAME_GAP_TIMEOUT. -/
def execFrameGapTimeout (link : Link) (bytes : List Byte) (s : State) : Host.Outcome State Fault Refusal :=
  .next { s with dev := s.dev.frameGap link bytes }

/-- BREAK. -/
def execLineBreak (link : Link) (s : State) : Host.Outcome State Fault Refusal :=
  .next { s with dev := s.dev.lineBreak link }

/-- LINE_RETURNS_TO_MARKING. -/
def execLineReturnsToMarking (link : Link) (s : State) : Host.Outcome State Fault Refusal :=
  .next { s with dev := s.dev.lineMarks link }

/-- RESPONSE_FRAME_SENT. -/
def execResponseFrameSent (link : Link) (s : State) : Host.Outcome State Fault Refusal :=
  .next { s with dev := s.dev.responseSent link }

/-- LINK_RATE_CHANGE. -/
def execLinkRateChange (link : Link) (s : State) : Host.Outcome State Fault Refusal :=
  .next { s with dev := s.dev.rateChange link }

/-- CLOCK_SECOND. -/
def execClockSecond (s : State) : Host.Outcome State Fault Refusal := .next { s with dev := s.dev.clockSecond }

end Sys2Proof.Machine
end

