-- ==== Sys2Proof/Machine/Startup.lean ====
section
/-! DEFINITION. The end of the start-up scan (section 8.5) and what the blocks rebuild from it: classes of slots, the parameter
set and the verification status, the trail, the visits, the ticket queue, the numbers and the stored tares; and the moment
the links accept frames. -/

namespace Sys2Proof.Machine

/-! ## Classing (R139, R141, R147) -/

/-- A slot as the scan hands it on: its class, its key and the words of its record. -/
structure ScanSlot where
  region : Region
  slot : Nat
  cls : SlotClass
  key : Nat
  body : List Word
  deriving DecidableEq, Repr

/-- The first word as read. -/
def firstRead (reads : List WordRead) : Option WordRead := reads.head?

/-- The data of the completion word, where it is sound. -/
def completionData (reads : List WordRead) : Option Word := reads.getLast?.bind (·.data)

/-- Whether a copy qualifies as current: its completion word sound and equal to its first word, or its first word alone DOUBLE
of the two (R141). -/
def qualifies (reads : List WordRead) : Bool :=
  match completionData reads, firstRead reads with
  | some c, some w => match w.data with | some f => f == c | none => true
  | _, _ => false

/-- The copy count of a copy, 0 where its completion word is not sound (R141). -/
def copyCount (reads : List WordRead) : Nat :=
  match completionData reads with | some c => (headerFields c).2.1 | none => 0

/-- The current copy of a paired slot (R141). -/
def currentCopy (reads0 reads1 : List WordRead) : Nat :=
  match qualifies reads0, qualifies reads1 with
  | true, true => if copyCount reads1 = (copyCount reads0 + 1) % 4 then 1 else 0
  | false, true => 1
  | _, _ => 0

/-- The class of a record whose completion word is sound (R147). The copy count of an archive or trail record, 0 by R139, is not judged
(DESIGN CHOICE, log entry 78). -/
def classOfRecord (r : Region) (slot : Nat) (completion : Word) (reads : List WordRead) : SlotClass :=
  let (kind, _, key) := headerFields completion
  let stale :=
    match firstRead reads with
    | some w => match w.data with | some f => f != completion | none => false
    | none => true
  if kind = 0 then .absent
  else if stale then .absent
  else if kind ≠ r.kind ∨ keyBelongs r slot key = false then .absent
  else if anyDouble reads then .damaged
  else .valid

/-- The class of a single slot (R147). -/
def classSingle (r : Region) (slot : Nat) (reads : List WordRead) : SlotClass :=
  match completionData reads with
  | none => .interrupted
  | some c => classOfRecord r slot c reads

/-- The class of a paired slot by its current copy, and where neither copy qualifies by their completion words (R147). -/
def classPaired (r : Region) (slot : Nat) (reads0 reads1 : List WordRead) : SlotClass :=
  if qualifies reads0 || qualifies reads1 then
    classSingle r slot (if currentCopy reads0 reads1 = 0 then reads0 else reads1)
  else if (completionData reads0).isNone || (completionData reads1).isNone then .interrupted
  else .absent

/-! ## The scan's counts (R137, R138, R147) -/

/-- The scan's counts over the words of a copy: CORRECTED words are counted and scrubbed, DOUBLE words counted, and
STORE_FAULT raised with the source SCAN where `faults`; a completion word alone raises none. -/
def Dev.scanWords (d : Dev) (r : Region) (slot : Nat) (faults : Bool) (key : Option Nat) : List WordRead → Dev
  | [] => d
  | w :: t =>
    let d : Dev :=
      if w.wasCorrected then
        { d with store := ({ d.store with corrected := satInc 65535 d.store.corrected }).join [.scrub w.address] }
      else if w.cls = .double then
        let d : Dev := { d with store := { d.store with uncorrectable := satInc 65535 d.store.uncorrectable } }
        if faults && !t.isEmpty then d.raiseBoth (.storeFault r slot key .scan) else d
      else d
    d.scanWords r slot faults key t

/-- A class counted (R147). -/
def ClassCounts.add (c : ClassCounts) : SlotClass → ClassCounts
  | .valid => { c with valid := c.valid + 1, absent := c.absent - 1 }
  | .interrupted => { c with interrupted := c.interrupted + 1, absent := c.absent - 1 }
  | .damaged => { c with damaged := c.damaged + 1, absent := c.absent - 1 }
  | _ => c

/-- The counts with one slot's class added to its region's. -/
def Store.countClass (s : Store) (r : Region) (c : SlotClass) : Store :=
  { s with counts := s.counts.modify r.index fun x => x.add c }

/-- The scan of one slot: its reads counted, its class, and for a paired slot its next-write copy and count. -/
def Dev.scanSlot (d : Dev) (r : Region) (slot : Nat) : ScanSlot × Dev :=
  let reads0 := readCopy d.nv r slot 0
  if r.paired then
    let reads1 := readCopy d.nv r slot 1
    let current := currentCopy reads0 reads1
    let d := d.scanWords r slot (current == 0) (keyOfReads reads0) reads0
    let d := d.scanWords r slot (current == 1) (keyOfReads reads1) reads1
    let reads := if current = 0 then reads0 else reads1
    let cls := classPaired r slot reads0 reads1
    let store := d.store.countClass r cls
    let next : PairState := ⟨1 - current, (copyCount reads + 1) % 4⟩
    let store := { store with pairs := tableWrite pairDefault (slotNumber r slot) next store.pairs }
    (⟨r, slot, cls, (keyOfReads reads).getD 0, bodyOfReads reads⟩, { d with store := store })
  else
    let d := d.scanWords r slot true (keyOfReads reads0) reads0
    let cls := classSingle r slot reads0
    let key := (keyOfReads reads0).getD 0
    let store := d.store.countClass r cls
    (⟨r, slot, cls, key, bodyOfReads reads0⟩,
      { d with store := if cls = .absent then store else store.setIndex r slot ⟨cls, key⟩ })

/-- The scan of a list of slot numbers in order. -/
def Dev.scanSlots (d : Dev) : List Nat → List ScanSlot × Dev
  | [] => ([], d)
  | n :: t =>
    let (r, slot) := slotOfNumber n
    let (x, d) := d.scanSlot r slot
    let (xs, d) := Dev.scanSlots d t
    (x :: xs, d)

/-- The slots with a word written in them, in order; every other slot holds FREE records. -/
def writtenSlots : List (Nat × StoreWord) → List Nat
  | [] => []
  | (a, _) :: t =>
    match writtenSlots t with
    | [] => [slotOfAddress a]
    | n :: ns => if slotOfAddress a = n then n :: ns else slotOfAddress a :: n :: ns

/-- The scan (R147). -/
def Dev.scan (d : Dev) : List ScanSlot × Dev := d.scanSlots (writtenSlots d.nv)

/-! ## What the owners read (R203) -/

/-- A record read by its owner: its contents, or DAMAGED by its class or by a value its layout does not allow. -/
inductive Restored (α : Type)
  | record (slot key : Nat) (r : α)
  | damaged (slot key : Nat)
  deriving DecidableEq, Repr

/-- The records of a region, in slot order; slots ABSENT or INTERRUPTED give nothing. -/
def restored {α : Type} (scan : List ScanSlot) (r : Region) (decode : Nat → Nat → List Word → Option α) : List (Restored α) :=
  (scan.filter fun x => x.region == r).filterMap fun x =>
    match x.cls with
    | .valid =>
      match decode x.slot x.key x.body with
      | some v => some (.record x.slot x.key v)
      | none => some (.damaged x.slot x.key)
    | .damaged => some (.damaged x.slot x.key)
    | _ => none

/-- The records of a list that are not DAMAGED. -/
def goodOnes {α : Type} (l : List (Restored α)) : List α :=
  l.filterMap fun x => match x with | .record _ _ v => some v | .damaged .. => none

/-- The highest key of a region's slots classed VALID or DAMAGED, or 0 (R120, R186). -/
def highestKey (scan : List ScanSlot) (r : Region) : Nat :=
  ((scan.filter fun x => x.region == r && (x.cls == .valid || x.cls == .damaged)).map (·.key)).foldl max 0

/-! ## The metrology unit (R149, R167, R183, R186) -/

/-- The parameter block and the counters block as restored. -/
structure Blocks where
  param : Option (ParamSet × Nat × SiteSettings)
  counters : Option (Nat × VerStatus × Nat)
  deriving DecidableEq, Repr

/-- The two blocks of a scan. -/
def blocksOf (scan : List ScanSlot) : Blocks :=
  { param := (goodOnes (restored scan .parameters fun _ _ b => paramOfWords b)).head?,
    counters := (goodOnes (restored scan .counters fun _ _ b => countersOfWords b)).head? }

/-- The generation restored (R149). -/
def restoredGeneration (b : Blocks) (trail : List TrailRecord) : Nat :=
  match b.param, b.counters with
  | some (_, g, _), some (c, _, _) => max g c
  | some (_, g, _), none => g
  | none, some (c, _, _) => c
  | none, none => (trail.map (·.generation)).foldl max 0

/-- The first verification status restored (R149). -/
def restoredStatus (b : Blocks) : VerStatus :=
  match b.param, b.counters with
  | some (_, g, _), some (c, st, _) => if c = g then st else .pending
  | _, _ => .pending

/-- The counters block's status sequence, 0 where it is not VALID or its generation differs (R186). -/
def restoredStatusSeq (b : Blocks) (generation : Nat) : Nat :=
  match b.counters with
  | some (c, _, q) => if c = generation then q else 0
  | none => 0

/-- The parameter set, the settings, the generation and the first status restored; a blank start otherwise (R8, R149). -/
def Dev.restoreBlocks (d : Dev) (b : Blocks) (trail : List TrailRecord) : Dev :=
  let generation := restoredGeneration b trail
  let m : Metrology :=
    { Metrology.start with
      generation := generation, status := restoredStatus b, statusSeq := restoredStatusSeq b generation,
      switchClosed := d.pins.switchClosed }
  match b.param with
  | some (p, _, t) => { d with metro := { m with current := p, site := t, paramHeld := true } }
  | none => { d with metro := m, store := { d.store with blankStart := true } }

/-- The archive boundary of the trail's records: the highest that an ARCHIVE record carries, raised so that at most 511 are
unarchived (R186). -/
def trailBoundary (trail : List TrailRecord) (last : Nat) : Nat :=
  let carried := (trail.filterMap fun r => match r.body with | .archive n _ _ => some n | _ => none).foldl max 0
  max carried (last - 511)

/-- Whether an INTEGRITY_EVENT names a sequence number (R186). -/
def namesSequence (trail : List TrailRecord) (s : Nat) : Bool :=
  trail.any fun r => match r.body with | .integrityEvent _ _ q => q == s | _ => false

/-- The highest-numbered record of a list that a test accepts. -/
def highestRecord (trail : List TrailRecord) (p : TrailRecord → Bool) : Option TrailRecord :=
  (trail.filter p).foldl (fun best r =>
    match best with
    | none => some r
    | some x => if x.sequence < r.sequence then some r else some x) none

/-- An INTEGRITY_EVENT written at start-up where two free spaces remain (R167, R186). The manual does not give the status sequence of
the counters block that step 4 of R186 writes after the findings; the model puts the number of the last finding's event there, or
leaves the earlier sequence where no event had room (DESIGN CHOICE, log entry 56). An event that takes the unarchived count to 480
raises nothing here; step 5 of R186 raises TRAIL_NEAR_FULL once (DESIGN CHOICE, log entry 65). The source is SCAN, as R186 gives it for
the findings, in the event of reason COMMIT_CUT too, where R167 names none (DESIGN CHOICE, log entry 72). -/
def Dev.startEvent (d : Dev) (reason : IntegrityReason) (s : Nat) (finding : Bool) : Dev :=
  let seq := d.metro.lastSeq + 1
  if d.metro.free < 2 ∨ maxSequence < seq then d
  else
    let d := d.startWrite (trailSpec ⟨seq, d.timeOpt, d.metro.generation, .integrityEvent reason .scan s⟩) .nothing
    { d with metro := { d.metro with lastSeq := seq, statusSeq := if finding then seq else d.metro.statusSeq } }

/-- A commit that power cut off before its parameter block: its header is one generation above the one restored (R167). -/
def cutHeader (trail : List TrailRecord) (generation : Nat) : Option TrailRecord :=
  highestRecord trail fun r =>
    (match r.body with | .calCommit .. => true | _ => false) && r.generation == generation + 1

/-- R167's cut header settled by an INTEGRITY_EVENT, once. -/
def Dev.settleCommit (d : Dev) (trail : List TrailRecord) : Dev :=
  match cutHeader trail d.metro.generation with
  | some r => if namesSequence trail r.sequence then d else d.startEvent .commitCut r.sequence false
  | none => d

/-- A SITE SET cut off before its parameter block is completed (R183). -/
def Dev.settleSite (d : Dev) (trail : List TrailRecord) : Dev :=
  match highestRecord trail fun _ => true with
  | some r =>
    match r.body with
    | .siteChange id _ new =>
      if d.metro.paramHeld && d.metro.site.get id != new then
        match d.metro.site.set? id new with
        | some t =>
          let d : Dev := { d with metro := { d.metro with site := t } }
          d.startWrite d.metro.paramRecord .nothing
        | none => d
      else d
    | _ => d
  | none => d

/-- The status a trail record gives (R186). -/
def statusOfRecord (r : TrailRecord) : Option VerStatus :=
  match r.body with
  | .calCommit .. => some .pending
  | .auditResult pass .. => some (if pass then .verified else .failed)
  | .integrityEvent .damagedRecord _ _ => some .integrity
  | .integrityEvent .lostRecord _ _ => some .integrity
  | _ => none

/-- The record of a status write that was cut off before its counters block (R186). -/
def cutStatus (trail : List TrailRecord) (m : Metrology) : Option TrailRecord :=
  match highestRecord trail fun r => (statusOfRecord r).isSome && r.generation == m.generation with
  | some r => if m.statusSeq < r.sequence then some r else none
  | none => none

/-- A finding placed by its sequence number. -/
def insertFinding (f : Nat × IntegrityReason) : List (Nat × IntegrityReason) → List (Nat × IntegrityReason)
  | [] => [f]
  | x :: t => if f.1 ≤ x.1 then f :: x :: t else x :: insertFinding f t

/-- The findings of the trail's slots, in sequence order (R186). -/
def trailFindings (scan : List ScanSlot) (trail : List TrailRecord) (boundary last : Nat) : List (Nat × IntegrityReason) :=
  let damaged := (restored scan .trail fun _ k b => trailOfWords k b).filterMap fun x =>
    match x with | .damaged _ k => some (k, IntegrityReason.damagedRecord) | .record .. => none
  let lost := (scan.filter fun x => x.region == .trail && x.cls == .interrupted).filterMap fun x =>
    ((List.range (last - boundary)).map (fun i => boundary + 1 + i)).find? (fun s =>
      (s - 1) % 512 == x.slot && decide (s < last)) |>.map fun s => (s, IntegrityReason.lostRecord)
  ((damaged ++ lost).filter fun f => !namesSequence trail f.1).foldr insertFinding []

/-- The findings written as start-up writes (R186). -/
def Dev.writeFindings (d : Dev) : List (Nat × IntegrityReason) → Dev
  | [] => d
  | (s, reason) :: t => (d.startEvent reason s true).writeFindings t

/-- Whether the counters block lags the parameter block: a commit cut off in the counters block (R167). -/
def countersLag (b : Blocks) : Bool :=
  match b.param with
  | some (_, g, _) => decide ((match b.counters with | some (c, _, _) => c | none => 0) < g)
  | none => false

/-- The metrology unit rebuilt: R149, R167, R183, R186. The counters block of a commit or status write that was cut off is
written once for R167 and R186 together, and once more after any findings. R183's parameter block stands behind the COMMIT_CUT
event and before the counters block and the findings, a place the manual does not give (DESIGN CHOICE, log entry 66); TRAIL_NEAR_FULL
is raised once, at step 5 (DESIGN CHOICE, log entry 65). -/
def Dev.rebuildMetrology (d : Dev) (scan : List ScanSlot) : Dev :=
  let blocks := blocksOf scan
  let trail := goodOnes (restored scan .trail fun _ k b => trailOfWords k b)
  let d := d.restoreBlocks blocks trail
  let last := highestKey scan .trail
  let boundary := trailBoundary trail last
  let d : Dev := { d with metro := { d.metro with lastSeq := last, boundary := boundary } }
  let d := (d.settleCommit trail).settleSite trail
  let cut := cutStatus trail d.metro
  let d : Dev :=
    match cut with
    | some r =>
      { d with metro := { d.metro with status := (statusOfRecord r).getD .pending, statusSeq := r.sequence } }
    | none => d
  let d := if cut.isSome || countersLag blocks then d.startWrite d.metro.countersRecord .nothing else d
  let findings := trailFindings scan trail boundary last
  let d : Dev := if findings = [] then d else { d with metro := { d.metro with status := .integrity } }
  let d := d.writeFindings findings
  let d := if findings = [] then d else d.startWrite d.metro.countersRecord .nothing
  let d := if d.metro.status = .verified then d else d.verifyStatus .start
  if 480 ≤ d.metro.unarchived then d.raise .service (.trailNearFull d.metro.unarchived d.metro.free) else d

/-! ## The yard register (R100) -/

/-- Whether a weighing number is present in the archive (R110). -/
def Store.present (s : Store) (m : Nat) : Bool := decide (1 ≤ m) && s.weighingIn (weighingSlot m) == some m

/-- Whether a visit needs a first weighing that the archive does not hold (R100). -/
def Store.lacksFirst (s : Store) (v : Visit) : Bool :=
  v.state != .awaitingFirst && !(match v.first with | some f => s.present f.number | none => false)

/-- A restored visit removed, raising VISIT_EXPIRED (R100). -/
def Dev.expireAtStart (d : Dev) (v : Visit) : Dev :=
  (d.startWrite (removal .visits v.slot) .nothing).raise .console (expiredCause v)

/-- The visits restored one after another; those with a closing number are settled later (R100, R121). R100 names no rule for two
VALID slots of one identity or one visit number; the model restores both (DESIGN CHOICE, log entry 63). Nor does it name an order of
the slots; the model goes through them in rising order, so that VISIT_DAMAGED and VISIT_EXPIRED, raised for several, carry the data of
the highest (DESIGN CHOICE, log entry 76). -/
def Dev.restoreVisits (d : Dev) : List (Restored (Visit × Option Nat)) → Dev
  | [] => d
  | .damaged slot key :: t =>
    ((d.startWrite (removal .visits slot) .nothing).raise .console (.visitDamaged key)).restoreVisits t
  | .record _ _ (v, closing) :: t =>
    let d : Dev :=
      if closing.isNone && d.store.lacksFirst v then d.expireAtStart v
      else { d with yard := { d.yard with visits := insertVisit v d.yard.visits } }
    d.restoreVisits t

/-- The register rebuilt, with its last allocated number (R82, R100). The manual does not say whether a visit that R100 removes at
once counts among the restored visits for that number; the model leaves it out, and counts one that R121 removes later (DESIGN
CHOICE, log entry 53). -/
def Dev.rebuildYard (d : Dev) (visits : List (Restored (Visit × Option Nat))) : Dev :=
  let d := ({ d with yard := Yard.start } : Dev).restoreVisits visits
  { d with yard := { d.yard with lastNumber := (d.yard.visits.map (·.number)).foldl max 0 } }

/-! ## The ticket queue and the settlement of closing numbers (R121, R124) -/

/-- The archive's VALID ticket of a number (R116). -/
def archivedTicket (scan : List ScanSlot) (n : Nat) : Option Ticket :=
  (scan.find? fun x => x.region == .tickets && x.cls == .valid && x.key == n).bind fun x => ticketOfWords x.key x.body

/-- Whether the archive holds a record of a number that is DAMAGED. -/
def archivedDamaged (scan : List ScanSlot) (n : Nat) : Bool :=
  scan.any fun x => x.region == .tickets && (x.cls == .valid || x.cls == .damaged) && x.key == n
    && (archivedTicket scan n).isNone

/-- A queue record read: its ticket, or the DAMAGED mark of R151's repair, which carries no ticket (log entry 64). -/
def queueOfWords (key : Nat) (b : List Word) : Option (Option Ticket) :=
  if queueDamagedMark b then some none else (ticketOfWords key b).map some

/-- A queue slot restored; the second slot of a number is cleared (R124). R124 gives a VALID slot the ticket it holds; a VALID record
with the DAMAGED mark holds none, and the model restores the entry with its mark and does not search the ticket archive (DESIGN
CHOICE, log entry 64). -/
def Dev.restoreQueueSlot (scan : List ScanSlot) (d : Dev) (x : Restored (Option Ticket)) : Dev :=
  let (slot, key) := match x with | .record s k _ => (s, k) | .damaged s k => (s, k)
  if d.tickets.queue.any fun e => e.number == key then d.startWrite (removal .queue slot) .nothing
  else
    let (ticket, rewrite) :=
      match x with
      | .record _ _ t => (t, false)
      | .damaged .. => match archivedTicket scan key with | some t => (some t, true) | none => (none, false)
    let d := if rewrite then d.startWrite (queueSpec slot key ticket) .nothing else d
    { d with tickets := { d.tickets with queue := insertTicket ⟨key, true, ticket, 0, slot⟩ d.tickets.queue } }

/-- The ticket queue rebuilt (R124). -/
def Dev.rebuildQueue (d : Dev) (scan : List ScanSlot) : Dev :=
  (restored scan .queue fun _ k b => queueOfWords k b).foldl (Dev.restoreQueueSlot scan)
    { d with tickets := { d.tickets with queue := [] } }

/-- A visit with a closing number settled by the ticket archive (R121). A queue that already holds 32 entries takes no other; the
controller admits no ticket there, so no run of it leaves such a store (log entry 54). -/
def Dev.settleVisit (scan : List ScanSlot) (d : Dev) (v : Visit) (n : Nat) : Dev :=
  let removed := fun (d : Dev) => ({ d with yard := d.yard.remove v.number } : Dev).startWrite (removal .visits v.slot) .nothing
  let kept := fun (d : Dev) =>
    let d := d.startWrite (visitSpec v none) .nothing
    if d.store.lacksFirst v then ({ d with yard := d.yard.remove v.number } : Dev).expireAtStart v else d
  let queued := d.tickets.queue.any fun e => e.number == n
  match archivedTicket scan n with
  | some t =>
    if t.visit = v.number then
      if queued || decide (maxQueue ≤ d.tickets.queue.length) then removed d
      else
        let slot := d.tickets.freeQueueSlot
        let d := d.startWrite (queueSpec slot n (some t)) (.post n)
        removed { d with tickets := { d.tickets with queue := insertTicket ⟨n, false, some t, 0, slot⟩ d.tickets.queue } }
    else kept d
  | none => if archivedDamaged scan n then removed d else kept d

/-- Every visit with a closing number settled (R121), in rising slot order (DESIGN CHOICE, log entry 76). -/
def Dev.settleVisits (scan : List ScanSlot) (d : Dev) (visits : List (Restored (Visit × Option Nat))) : Dev :=
  (goodOnes visits).foldl (fun d x => match x.2 with | some n => Dev.settleVisit scan d x.1 n | none => d) d

/-! ## Numbers and tares (R102, R120) -/

/-- The last weighing and ticket numbers (R120). -/
def Dev.restoreNumbers (d : Dev) (scan : List ScanSlot) : Dev :=
  { d with tickets :=
    { d.tickets with
      lastWeighing := highestKey scan .weighings,
      lastTicket := max (highestKey scan .tickets) (highestKey scan .queue) } }

/-- Whether an entry is kept before another of its identity: the later recording time, then the higher number (R102). -/
def TareEntry.beats (a b : TareEntry) : Bool :=
  decide (b.time < a.time) || (a.time == b.time && decide (b.weighing < a.weighing))

/-- A tare slot restored: a DAMAGED slot and the lesser of two entries of one identity are cleared (R102). Of two
whose recording time and number are both equal, the lower slot's is kept (DESIGN CHOICE, log entry 68). -/
def Dev.restoreTare (d : Dev) (x : Restored TareEntry) : Dev :=
  match x with
  | .damaged slot _ => d.startWrite (removal .tares slot) .nothing
  | .record slot _ e =>
    match d.tickets.findTare e.identity with
    | none => { d with tickets := { d.tickets with tares := insertTare e d.tickets.tares } }
    | some old =>
      if e.beats old then
        let d := d.startWrite (removal .tares old.slot) .nothing
        { d with tickets :=
          { d.tickets with tares := insertTare e (d.tickets.tares.filter fun y => y.slot != old.slot) } }
      else d.startWrite (removal .tares slot) .nothing

/-- The stored-tare table rebuilt (R102). -/
def Dev.rebuildTares (d : Dev) (scan : List ScanSlot) : Dev :=
  (restored scan .tares fun s k b => tareOfWords s k b).foldl Dev.restoreTare
    { d with tickets := { d.tickets with tares := [] } }

/-! ## The end of the scan (R148) and the links' opening (R201) -/

/-- Every link at the rate its setting gives (R187, R201). -/
def Links.setRates (k : Links) (t : SiteSettings) : Links :=
  { console := { k.console with rate := t.rateConsole }, lane := { k.lane with rate := t.rateLane },
    inventory := { k.inventory with rate := t.rateInventory }, service := { k.service with rate := t.rateService } }

/-- The other blocks' start values when the scan ends (R2, R14, R24, R35, R45). -/
def Dev.startBlocks (d : Dev) : Dev :=
  { d with
    phase := .startWrites, cells := startPorts d.metro.current, weighing := Weighing.start, axle := AxleUnit.start,
    bridge := Bridge.start d.pins.entryBlocked d.pins.exitBlocked, links := d.links.setRates d.metro.site }

/-- START_UP_SCAN_END (R148): the slots are classed, and the owning blocks rebuild in order. -/
def Dev.scanEnd (d : Dev) : Dev :=
  if d.phase ≠ .scanning then d
  else
    let (scan, d) := d.scan
    let visits := restored scan .visits fun s k b => visitOfWords s k b
    let d := d.rebuildMetrology scan
    let d := d.rebuildYard visits
    let d := d.rebuildQueue scan
    let d := Dev.settleVisits scan d visits
    let d := d.restoreNumbers scan
    (d.rebuildTares scan).startBlocks

/-- LINKS_ACCEPT_FRAMES (R125, R126, R148, R201): the last start-up write has been written. -/
def Dev.acceptFrames (d : Dev) : Dev :=
  if d.phase = .startWrites ∧ d.store.queue = [] ∧ d.store.waiting = [] then
    (({ d with phase := .running } : Dev).testThreshold d.tickets.highestPosted).testQueueFull
  else d

/-! ## The meanings -/

/-- START_UP_SCAN_END. -/
def execStartUpScanEnd (s : State) : Host.Outcome State Fault Refusal := .next { s with dev := s.dev.scanEnd }

/-- LINKS_ACCEPT_FRAMES. -/
def execLinksAcceptFrames (s : State) : Host.Outcome State Fault Refusal := .next { s with dev := s.dev.acceptFrames }

end Sys2Proof.Machine
end

