-- ==== Sys2Proof/Machine/Power.lean ====
section
/-! DEFINITION. Power and RESTART (sections 8.4 and 11.6): the power-fail warning with the record in progress, power-on, the
warning's withdrawal, and RESTART with its drain. -/

namespace Sys2Proof.Machine

/-- What volatile service ends at a power-fail warning or when RESTART takes effect: calibration mode and its capture, an
audit session and its point, with nothing written (R153, R170). -/
def Metrology.dropModes (m : Metrology) : Metrology :=
  { m with working := none, differs := false, zeroCapture := none, session := none }

/-! ## The power-fail warning (R145, R200) -/

/-- The completion word of a record write, as its address and its data. -/
def completionOf (spec : RecordSpec) (copy count : Nat) : Nat × Word :=
  (recordBase spec.region spec.slot copy + spec.region.words - 1, headerWord spec.kind count spec.key)

/-- The record in progress at the warning, `done` of its words written: written whole where only its completion word is left;
otherwise its completion word is poisoned, and its remaining words, the true completion word last, are left to the hold-up
supply (R145). -/
def cutRecord (nv : Memory) (spec : RecordSpec) (copy count done : Nat) : Memory × List (Nat × StoreWord) :=
  let ws := recordWords spec copy count
  if ws.length ≤ done + 1 then (Memory.writeAll nv ws, [])
  else
    let c := completionOf spec copy count
    (Memory.write (Memory.writeAll nv (ws.take done)) c.1 (poisonWord c.2), ws.drop done)

/-- The store at the warning: the entry in progress dealt with, every other dropped (R145). -/
def Dev.cutStore (d : Dev) (done : Nat) : Dev :=
  let (nv, cut) :=
    match d.store.queue with
    | .record spec copy count _ :: _ => cutRecord d.nv spec copy count done
    | .scrub a :: _ => (scrubWord d.nv a, [])
    | [] => (d.nv, [])
  { d with nv := nv, store := { d.store with queue := [], waiting := [], cut := cut } }

/-- POWER_FAIL_WARNING (R200): the store controller deals with the record in progress, of which some words are written; the
request, the mode and the session end without a response, and no block takes further events. -/
def Dev.powerFail (d : Dev) (done : Nat) : Dev :=
  if d.phase = .powerFail then d
  else
    let d := d.cutStore done
    { d with
      phase := .powerFail, restartPending := none, metro := d.metro.dropModes,
      bridge := { d.bridge with request := none, heldRelease := false } }

/-- POWER_ON (R146, R197, R201): the hold-up supply wrote some of the words left; the clock is reset where its backup supply
failed; the start-up begins. -/
def Dev.powerOn (d : Dev) (heldUp : Nat) (backupLost : Bool) : Dev :=
  Dev.start (Memory.writeAll d.nv (d.store.cut.take heldUp)) (if backupLost then ⟨0, false⟩ else d.clock) d.pins

/-- POWER_FAIL_WITHDRAWN (R200): the record in progress has ended, and a start-up begins as at power-on, the clock kept. -/
def Dev.powerWithdrawn (d : Dev) : Dev :=
  if d.phase = .powerFail then Dev.start (Memory.writeAll d.nv d.store.cut) d.clock d.pins else d

/-! ## RESTART (R146, R199) -/

/-- The code of RESTART (A.3). -/
def codeRestart : Byte := 0x71#8

/-- RESTART: answered OK at once; it takes effect when the response has been sent, a later RESTART no later than the first. -/
def Dev.restart (d : Dev) (tag : Byte) : Dev :=
  d.dispatch .service codeRestart tag true true fun d =>
    let d := d.finish .service .ok .none
    { d with restartPending := d.restartPending.or (some d.links.service.toSend) }

/-- A link that stops receiving: its partial frame is discarded (R199). -/
def LinkState.stopReceiving (k : LinkState) : LinkState := { k with assembly := .hunting }

/-- Every link stopped receiving. -/
def Links.stopReceiving (k : Links) : Links := k.mapAll LinkState.stopReceiving

/-- The waiting commands ended without a response: a WEIGH in WAITING, a held release, a zero capture, an audit point (R199). -/
def Dev.endWaitingCommands (d : Dev) : Dev :=
  let d :=
    match d.bridge.state with
    | .waiting =>
      ((d.onLink .lane fun k => { k with handedOff := none }).onBridge fun b => { b with request := none }).changeBridge
        .standing
    | _ => d
  let d :=
    if d.bridge.heldRelease then
      (d.onLink .lane fun k => { k with slot := none }).onBridge fun b => { b with heldRelease := false }
    else d
  let d := if d.metro.zeroCapture.isSome then d.onLink .service fun k => { k with slot := none } else d
  d.onLink .service fun k => { k with handedOff := none }

/-- RESTART_TAKES_EFFECT (R199): its response has been sent, or a break has taken it; the links stop receiving, waiting
commands end, the modes end, and the store drains. -/
def Dev.restartEffect (d : Dev) : Dev :=
  if d.phase = .running ∧ d.restartPending = some 0 then
    let d := d.endWaitingCommands
    { d with phase := .draining, restartPending := none, metro := d.metro.dropModes, links := d.links.stopReceiving }
  else d

/-- Whether the drain is complete and the last response sent (R199). -/
def Dev.drained (d : Dev) : Bool :=
  d.phase == .draining && d.store.queue.isEmpty && d.store.waiting.isEmpty && d.links.console.toSend == 0
    && d.links.lane.toSend == 0 && d.links.inventory.toSend == 0 && d.links.service.toSend == 0

/-- RESTART_DRAIN_COMPLETE (R146, R199): the start-up begins. -/
def Dev.drainComplete (d : Dev) : Dev := if d.drained then Dev.start d.nv d.clock d.pins else d

/-! ## The meanings -/

/-- POWER_FAIL_WARNING. -/
def execPowerFailWarning (wordsWritten : Nat) (s : State) : Host.Outcome State Fault Refusal :=
  .next { s with dev := s.dev.powerFail wordsWritten }

/-- POWER_ON. -/
def execPowerOn (wordsHeldUp : Nat) (backupLost : Bool) (s : State) : Host.Outcome State Fault Refusal :=
  .next { s with dev := s.dev.powerOn wordsHeldUp backupLost }

/-- POWER_FAIL_WITHDRAWN. -/
def execPowerFailWithdrawn (s : State) : Host.Outcome State Fault Refusal := .next { s with dev := s.dev.powerWithdrawn }

/-- RESTART. -/
def execRestart (tag : Byte) (s : State) : Host.Outcome State Fault Refusal := .next { s with dev := s.dev.restart tag }

/-- RESTART_TAKES_EFFECT. -/
def execRestartTakesEffect (s : State) : Host.Outcome State Fault Refusal := .next { s with dev := s.dev.restartEffect }

/-- RESTART_DRAIN_COMPLETE. -/
def execRestartDrainComplete (s : State) : Host.Outcome State Fault Refusal := .next { s with dev := s.dev.drainComplete }

end Sys2Proof.Machine
end

