-- ==== Sys2Proof/Machine/Sampling.lean ====
section
/-! DEFINITION. BRIDGE_SAMPLE (R11): the weighing unit reads the ports in use, computes the sample, and hands it to the bridge
monitor, the axle unit and the metrology unit, each acting on it under its own rules. -/

namespace Sys2Proof.Machine

/-- The hand-offs to the metrology unit, while calibration mode is active and during audit sessions (R11, R22). -/
def Dev.calHandOffs (d : Dev) : List HandOff := if d.calActive || d.inSession then d.handOffs else []

/-- The values the ports hold are those of this sample: the next one finds them held unless a frame is accepted (R22). -/
def Dev.holdValues (d : Dev) : Dev := { d with cells := d.cells.map fun r => { r with fresh := false } }

/-- The metrology unit's share of a bridge sample: the zero capture, the waiting point, the integrity writes (R160, R173,
R185). -/
def Dev.sampleMetrology (d : Dev) (hs : List HandOff) : Dev := ((d.sampleZero hs).samplePoint).sampleFindings

/-- BRIDGE_SAMPLE: the ports are read and the result computed; then the tracking count, the bridge state and the request in
flight, the axle unit's windows and gap count, and the metrology unit. -/
def Dev.bridgeSample (d : Dev) : Dev :=
  if !d.active then d
  else
    let d := (d.readPorts allPorts).computeSample
    let hs := d.calHandOffs
    let d := (((d.holdValues.trackingSample).sampleBridge).sampleRequest).samplePass
    d.sampleMetrology hs

/-- BRIDGE_SAMPLE. -/
def execBridgeSample (s : State) : Host.Outcome State Fault Refusal := .next { s with dev := s.dev.bridgeSample }

end Sys2Proof.Machine
end

