-- ==== Sys2Proof/Machine/Dispatch.lean ====
section
/-! DEFINITION. The dispatch of a command to its meaning: one arm per constructor of `Instr`, in the order of
spec/opcode_table.json. -/

namespace Sys2Proof.Machine

/-- A command's effect on everything but the queue. -/
def exec (i : Instr) (s : State) : Host.Outcome State Fault Refusal :=
  match i with
  | .sampleFrame port bytes => Sys2Proof.Machine.execSampleFrame port bytes s
  | .bridgeSample => Sys2Proof.Machine.execBridgeSample s
  | .afterWindowComplete => Sys2Proof.Machine.execAfterWindowComplete s
  | .passGapTimeout => Sys2Proof.Machine.execPassGapTimeout s
  | .zeroTracking => Sys2Proof.Machine.execZeroTracking s
  | .weighWaitExpiry => Sys2Proof.Machine.execWeighWaitExpiry s
  | .calZeroComplete => Sys2Proof.Machine.execCalZeroComplete s
  | .auditPointExpiry => Sys2Proof.Machine.execAuditPointExpiry s
  | .detection sensor ms => Sys2Proof.Machine.execDetection sensor ms s
  | .pairingTimeout => Sys2Proof.Machine.execPairingTimeout s
  | .endBeamChange beam blocked => Sys2Proof.Machine.execEndBeamChange beam blocked s
  | .calibrationSwitch closed => Sys2Proof.Machine.execCalibrationSwitch closed s
  | .powerFailWarning wordsWritten => Sys2Proof.Machine.execPowerFailWarning wordsWritten s
  | .powerFailWithdrawn => Sys2Proof.Machine.execPowerFailWithdrawn s
  | .powerOn wordsHeldUp backupLost => Sys2Proof.Machine.execPowerOn wordsHeldUp backupLost s
  | .startUpScanEnd => Sys2Proof.Machine.execStartUpScanEnd s
  | .linksAcceptFrames => Sys2Proof.Machine.execLinksAcceptFrames s
  | .storeRecordWritten => Sys2Proof.Machine.execStoreRecordWritten s
  | .scrubWrite => Sys2Proof.Machine.execScrubWrite s
  | .patrol => Sys2Proof.Machine.execPatrol s
  | .clockSecond => Sys2Proof.Machine.execClockSecond s
  | .frameGapTimeout link bytes => Sys2Proof.Machine.execFrameGapTimeout link bytes s
  | .frameDiscarded link bytes => Sys2Proof.Machine.execFrameDiscarded link bytes s
  | .lineBreak link => Sys2Proof.Machine.execLineBreak link s
  | .responseFrameSent link => Sys2Proof.Machine.execResponseFrameSent link s
  | .linkRateChange link => Sys2Proof.Machine.execLinkRateChange link s
  | .restartTakesEffect => Sys2Proof.Machine.execRestartTakesEffect s
  | .restartDrainComplete => Sys2Proof.Machine.execRestartDrainComplete s
  | .visitOpen tag identity direction commodity onePass => Sys2Proof.Machine.execVisitOpen tag identity direction commodity onePass s
  | .visitAmend tag visit commodity => Sys2Proof.Machine.execVisitAmend tag visit commodity s
  | .visitVoid tag visit => Sys2Proof.Machine.execVisitVoid tag visit s
  | .visitRelease tag visit => Sys2Proof.Machine.execVisitRelease tag visit s
  | .visitRead tag part key => Sys2Proof.Machine.execVisitRead tag part key s
  | .tareRead tag identity => Sys2Proof.Machine.execTareRead tag identity s
  | .tareDelete tag identity => Sys2Proof.Machine.execTareDelete tag identity s
  | .zero tag => Sys2Proof.Machine.execZero tag s
  | .setTime tag time => Sys2Proof.Machine.execSetTime tag time s
  | .recordRead link tag part ticket => Sys2Proof.Machine.execRecordRead link tag part ticket s
  | .weighingRead tag weighing => Sys2Proof.Machine.execWeighingRead tag weighing s
  | .status link tag => Sys2Proof.Machine.execStatus link tag s
  | .weigh tag purpose identity => Sys2Proof.Machine.execWeigh tag purpose identity s
  | .bridgeRead tag => Sys2Proof.Machine.execBridgeRead tag s
  | .bridgeRelease tag => Sys2Proof.Machine.execBridgeRelease tag s
  | .passRead tag first => Sys2Proof.Machine.execPassRead tag first s
  | .ticketTake tag part => Sys2Proof.Machine.execTicketTake tag part s
  | .ticketClear tag ticket => Sys2Proof.Machine.execTicketClear tag ticket s
  | .visitList tag start => Sys2Proof.Machine.execVisitList tag start s
  | .calEnter tag => Sys2Proof.Machine.execCalEnter tag s
  | .calSet tag identifier value => Sys2Proof.Machine.execCalSet tag identifier value s
  | .mapSet tag deck corner port => Sys2Proof.Machine.execMapSet tag deck corner port s
  | .calZero tag => Sys2Proof.Machine.execCalZero tag s
  | .calSpan tag mass => Sys2Proof.Machine.execCalSpan tag mass s
  | .calDeck tag deck mass => Sys2Proof.Machine.execCalDeck tag deck mass s
  | .calExitCommit tag => Sys2Proof.Machine.execCalExitCommit tag s
  | .calExitDiscard tag => Sys2Proof.Machine.execCalExitDiscard tag s
  | .auditBegin tag => Sys2Proof.Machine.execAuditBegin tag s
  | .auditPoint tag kind deck reference => Sys2Proof.Machine.execAuditPoint tag kind deck reference s
  | .auditEnd tag => Sys2Proof.Machine.execAuditEnd tag s
  | .auditAbort tag => Sys2Proof.Machine.execAuditAbort tag s
  | .trailRead tag sequence => Sys2Proof.Machine.execTrailRead tag sequence s
  | .trailArchive tag sequence => Sys2Proof.Machine.execTrailArchive tag sequence s
  | .siteSet tag identifier value => Sys2Proof.Machine.execSiteSet tag identifier value s
  | .cellRead tag port => Sys2Proof.Machine.execCellRead tag port s
  | .cellReadSummary tag => Sys2Proof.Machine.execCellReadSummary tag s
  | .storeCounts tag clear => Sys2Proof.Machine.execStoreCounts tag clear s
  | .restart tag => Sys2Proof.Machine.execRestart tag s
  | .lineReturnsToMarking link => Sys2Proof.Machine.execLineReturnsToMarking link s
  | .unknownCommandFrame link body => Sys2Proof.Machine.execUnknownCommandFrame link body s

end Sys2Proof.Machine
end

