-- ==== Sys2Proof/WellFormed.lean ====
section
/-! DEFINITION. Which terms of `Instr` can stand for a command or an event the controller meets: the lengths the layouts
of appendix A fix, the links the command-to-link table of R191 gives, and the ranges of an event's own data. The meanings
are total and do not assume it. -/

namespace Sys2Proof

/-- A vehicle identity on a link is 17 bytes (A.1). -/
def identityBytesOk (bytes : List Byte) : Bool := bytes.length == 17

/-- The millisecond counter is 48 bits wide (section 3.1). -/
def msMax : Nat := 281474976710655

/-- The longest record is the parameter block's 96 words (R140). -/
def longestRecord : Nat := 96

/-- Well-formed commands and events. -/
def Instr.wf : Instr → Bool
  | .detection _ ms => decide (ms ≤ msMax)
  | .powerFailWarning n => decide (n ≤ longestRecord)
  | .powerOn n _ => decide (n ≤ longestRecord)
  | .visitOpen _ identity _ _ _ => identityBytesOk identity
  | .visitRead _ _ (.identity bytes) => identityBytesOk bytes
  | .tareRead _ identity => identityBytesOk identity
  | .tareDelete _ identity => identityBytesOk identity
  | .weigh _ _ identity => identityBytesOk identity
  | .recordRead link _ _ _ => link == .console || link == .inventory
  | .cellRead _ port => port != 255
  | .frameGapTimeout _ bytes => decide (bytes.length ≤ 124)
  | .frameDiscarded _ bytes => decide (1 ≤ bytes.length) && decide (bytes.length ≤ 124)
  | .unknownCommandFrame _ body => decide (2 ≤ body.length) && decide (body.length ≤ 120)
  | _ => true

end Sys2Proof
end

