-- ==== Sys2Proof/Safety.lean ====
section
/-! DEFINITION. What counts as a safe run, and the terms in which the claims are stated: no step stops; the invariants every
step keeps; when a link is ready for a command and the queue has room; and the ranges within which a record can be held in
the store's layouts. -/

namespace Sys2Proof.Machine

/-! ## Safe runs -/

/-- The outcome that goes on with the controller as given and the queue of commands unchanged. -/
def State.goesTo (s : State) (d : Dev) : Host.Outcome State Fault Refusal := .next { s with dev := d }

/-- A state from which a step goes on. -/
def State.goesOn (s : State) : Prop := ∃ t, step s = .next t

/-- A run of `k` steps that ends in a state, with no fault and no refusal on the way. -/
def reaches : Nat → State → State → Prop
  | 0, s, t => s = t
  | k + 1, s, t => ∃ m, step s = .next m ∧ reaches k m t

/-! ## Invariants -/

/-- The store's words stand in their canonical form. -/
def State.storeCanonical (s : State) : Prop := Memory.wf s.dev.nv = true

/-- The write queue holds at most 16 entries, and a record waits to enter only while the queue is full (section 8.3). -/
def State.writeQueueBounded (s : State) : Prop :=
  s.dev.store.queue.length ≤ 16 ∧ (s.dev.store.waiting ≠ [] → s.dev.store.queue.length = 16)

/-- The millisecond counter lies in its 48 bits; the detection queue holds at most 8 detections in order of time, none later
than the counter (sections 3.1 and 3.2). -/
def State.detectionsOrdered (s : State) : Prop :=
  s.dev.axle.ms ≤ 281474976710655 ∧ s.dev.axle.queue.length ≤ 8
    ∧ s.dev.axle.queue.Pairwise (fun a b => a.time ≤ b.time) ∧ ∀ x ∈ s.dev.axle.queue, x.time ≤ s.dev.axle.ms

/-- The magnitude of Z_op lies within the zero limit of the current parameter set (section 2.3). -/
def State.zeroWithinLimit (s : State) : Prop := (s.dev.weighing.zOp.natAbs : Int) ≤ s.dev.metro.current.zeroLimit

/-- The counters that hold at their maxima lie at or below them: those of the ports, the weighing unit, the store controller and the
links, with the repeat count of each pending cause, the take count of each queue entry, the axles-on count, and the gap and sample
counts of the current pass with the crossing samples of its axles (sections 1.1, 1.3, 2.1, 3.4, 3.7, 7.1, 8.1, 8.6, 11.2 and 11.4). -/
def State.countersBounded (s : State) : Prop :=
  (∀ r ∈ s.dev.cells.toList, r.fails ≤ 255 ∧ r.goods ≤ 65535 ∧ r.checkErrors ≤ 65535)
    ∧ s.dev.weighing.samples ≤ 65535 ∧ s.dev.weighing.tracking ≤ 100
    ∧ s.dev.store.corrected ≤ 65535 ∧ s.dev.store.uncorrectable ≤ 65535 ∧ s.dev.store.sweeps ≤ 65535
    ∧ (∀ l, (s.dev.links.get l).errors ≤ 65535 ∧ ∀ p ∈ (s.dev.links.get l).causes, p.repeats ≤ 255)
    ∧ (∀ e ∈ s.dev.tickets.queue, e.takes ≤ 255) ∧ (∀ k, s.dev.bridge.count = some k → -255 ≤ k ∧ k ≤ 255)
    ∧ ∀ p, s.dev.axle.pass = some p → p.gap ≤ 1000 ∧ p.samples ≤ 65535 ∧ ∀ a ∈ p.axles, a.crossingSample ≤ 65535

/-- Each transmit queue holds at most 8 responses, and a response waits for a place only while its queue is full (section 11.3). -/
def State.transmitBounded (s : State) : Prop :=
  ∀ l, (s.dev.links.get l).tx.length ≤ 8 ∧ ((s.dev.links.get l).waiting ≠ [] → (s.dev.links.get l).tx.length = 8)

/-- The histories hold no more values than the last 32, 200 and 32 (sections 1.3 and 1.4). -/
def State.historiesBounded (s : State) : Prop :=
  s.dev.weighing.filterHist.length ≤ 32 ∧ s.dev.weighing.stabHist.length ≤ 200 ∧ s.dev.weighing.baseline.length ≤ 32

/-- The yard register holds at most 64 visits and the ticket queue at most 32 entries; the stored tares stand in rising order
of their slots, each one of the 256 (sections 5.1, 6.1 and 7.1). -/
def State.tablesBounded (s : State) : Prop :=
  s.dev.yard.visits.length ≤ 64 ∧ s.dev.tickets.queue.length ≤ 32
    ∧ s.dev.tickets.tares.Pairwise (fun a b => a.slot < b.slot) ∧ ∀ e ∈ s.dev.tickets.tares, e.slot < 256

/-- Each link's pending causes stand in strictly rising priority order, so that each kind is pending at most once
(section 11.4). -/
def State.causesOrdered (s : State) : Prop :=
  ∀ l, (s.dev.links.get l).causes.Pairwise fun a b => priority l a.cause < priority l b.cause

/-- Whether a queue entry reports a WEIGH in RECORDING. -/
def QueueEntry.reportsWeigh : QueueEntry → Bool
  | .record _ _ _ (some (.weigh ..)) => true
  | _ => false

/-- A pass is OPEN only in ENTERING (sections 2.1, 3.3 and 3.7). With it, since a report moves the bridge on: at most one entry of the
write queue reports a WEIGH, and only while the bridge is RECORDING (section 2.4). -/
def State.openPassEntering (s : State) : Prop :=
  let reports := (s.dev.store.queue ++ s.dev.store.waiting).filter QueueEntry.reportsWeigh
  (∀ p, s.dev.axle.pass = some p → p.state = .opened → s.dev.bridge.state = .entering)
    ∧ reports.length ≤ 1 ∧ (reports ≠ [] → s.dev.bridge.state = .recording ∧ s.dev.phase ≠ .scanning)

/-! ## When a command executes -/

/-- The links accept frames and a link is ready for a command: no break holds it, its slot is IDLE, and no response waits for a
place in its transmit queue (section 11.3). -/
def Dev.ready (d : Dev) (l : Link) : Prop :=
  d.phase = .running ∧ (d.links.get l).breakHeld = false ∧ (d.links.get l).slot = none ∧ (d.links.get l).waiting = []

/-- The blocks take events: from the end of the start-up scan until RESTART takes effect or power fails (sections 8.4, 8.5 and
11.6). -/
def Dev.takesEvents (d : Dev) : Prop := d.phase = .startWrites ∨ d.phase = .running

/-- The commands that take one crossing of a kind from the detection queue as it stands: an X on an empty queue, the second
detection of a pair, an A whose pairing timeout has come (section 3.2). -/
def Dev.forms (d : Dev) : Instr → CrossingKind → Prop
  | .detection .X _, .exit => d.axle.queue = []
  | .detection .B _, .forward => ∃ m, d.axle.queue = [⟨.A, m⟩]
  | .detection .A n, .backward =>
    ∃ m, d.axle.queue = [⟨.B, m⟩] ∧ min (max d.axle.ms n) 281474976710655 ≤ m + 3000
  | .pairingTimeout, .forward => ∃ m, d.axle.queue = [⟨.A, m⟩]
  | _, _ => False

/-- A link's command slot EXECUTING a command. -/
def Dev.executing (d : Dev) (l : Link) (code tag : Byte) : Dev := d.onLink l fun k => { k with slot := some ⟨code, tag, false⟩ }

/-- An answer of the link unit itself: formed where the transmit queue holds fewer than 6 frames, otherwise dropped with the
error count raised by one, holding at 65,535 (section 11.3). -/
def Dev.unitAnswer (d : Dev) (l : Link) (code tag : Byte) (status : Status) : Dev :=
  d.onLink l fun k =>
    if k.tx.length < 6 then { k with tx := k.tx ++ [⟨code, tag, status, .none⟩] }
    else { k with errors := min (k.errors + 1) 65535 }

/-- A link's transmit queue, with what waits for a place in it, is that of another controller with responses formed on it in order
(section 11.3). -/
def Dev.answered (t d : Dev) (l : Link) (rs : List Response) : Prop :=
  (t.links.get l).tx = (rs.foldl LinkState.send (d.links.get l)).tx
    ∧ (t.links.get l).waiting = (rs.foldl LinkState.send (d.links.get l)).waiting

/-- The write queue admits an operation of up to 16 records of a number (section 8.3). -/
def Dev.hasRoom (d : Dev) (n : Nat) : Prop := d.store.waiting = [] ∧ d.store.queue.length + n ≤ 16

/-- An operation admitted: its records given their copies and counts, and entered at the tail (section 8.3). -/
def Dev.admitted (d : Dev) (specs : List RecordSpec) (report : Done) : Dev :=
  { d with store := (d.store.takeAll specs).2.join (attachReport report (d.store.takeAll specs).1) }

/-- The trail's records admitted, with the last sequence number moved on (section 10.4). -/
def Dev.trailed (d : Dev) (bodies : List TrailBody) (generation : Nat) (time : Option Nat) (rest : List RecordSpec)
    (report : Done) : Dev :=
  let a := d.admitted ((trailRecords d.metro.lastSeq generation time bodies).map trailSpec ++ rest) report
  Dev.nearFull { a with metro := { a.metro with lastSeq := d.metro.lastSeq + bodies.length } } d.metro.unarchived

/-- The trail has room for a number of records beside the space kept for ARCHIVE, and sequence numbers for them (section
10.4). -/
def Dev.trailHasRoom (d : Dev) (k : Nat) : Prop := k + 1 ≤ d.metro.free ∧ d.metro.lastSeq + k ≤ maxSequence

/-! ## What the layouts of the store can hold (appendix A.4) -/

/-- A vehicle identity: 1 to 16 characters, each a code from 1 to 37. -/
def identityOk (id : Identity) : Prop := 1 ≤ id.length ∧ id.length ≤ 16 ∧ ∀ c ∈ id, 1 ≤ c ∧ c ≤ 37

/-- A weighing or ticket number (section 4.4). -/
def numberOk (n : Nat) : Prop := 1 ≤ n ∧ n ≤ 99999999

/-- A weight in the signed 24-bit field of a weighing record. -/
def weightOk (w : Int) : Prop := -8388608 ≤ w ∧ w ≤ 8388607

/-- A weight in a plain 24-bit field: of a visit's first weighing, a ticket or a tare entry. -/
def plainWeightOk (w : Int) : Prop := 0 ≤ w ∧ w ≤ 16777215

/-- A count of the clock (section 11.5). -/
def clockOk (t : Nat) : Prop := t ≤ 4294967294

/-- A weighing record within its layout. -/
def WeighingRecord.fits (w : WeighingRecord) : Prop :=
  identityOk w.identity ∧ weightOk w.weight ∧ clockOk w.time ∧ w.generation < 2 ^ 16
    ∧ ∀ v, w.visit = some v → 1 ≤ v ∧ v < 2 ^ 16

/-- A tare entry within its layout. -/
def TareEntry.fits (t : TareEntry) : Prop :=
  identityOk t.identity ∧ plainWeightOk t.weight ∧ clockOk t.time ∧ t.generation < 2 ^ 16

/-- A summary within its layout: up to 24 axles in groups of at least one, with loads inside the field. -/
def AxleSummary.fits (s : AxleSummary) : Prop :=
  s.openedAt < 2 ^ 48 ∧ s.generation < 2 ^ 16 ∧ s.band ≤ 10 ∧ s.limits.single ≤ 200000 ∧ s.limits.tandem ≤ 200000
    ∧ s.limits.triaxle ≤ 200000 ∧ s.limits.quad ≤ 200000 ∧ s.grossLimit ≤ 200000 ∧ s.axles ≤ 24
    ∧ ∀ g ∈ s.groups, 1 ≤ g.count ∧ -4194303 ≤ g.load ∧ g.load ≤ 4194303

/-- A visit record within its layout. -/
def Visit.fits (v : Visit) : Prop :=
  identityOk v.identity ∧ (∀ c, v.commodity = some c → 1 ≤ c ∧ c ≤ 999)
    ∧ (∀ f, v.first = some f → numberOk f.number ∧ plainWeightOk f.weight ∧ clockOk f.time ∧ f.generation < 2 ^ 16)
    ∧ ∀ s, v.summary = some s → s.fits

/-- A ticket record within its layout. -/
def Ticket.fits (t : Ticket) : Prop :=
  identityOk t.identity ∧ 1 ≤ t.visit ∧ t.visit < 2 ^ 16 ∧ 1 ≤ t.commodity ∧ t.commodity ≤ 999 ∧ plainWeightOk t.gross
    ∧ plainWeightOk t.tare
    ∧ t.grossGeneration < 2 ^ 16 ∧ t.tareGeneration < 2 ^ 16 ∧ numberOk t.grossNumber ∧ numberOk t.tareNumber
    ∧ clockOk t.grossTime ∧ clockOk t.tareTime ∧ ∀ s, t.summary = some s → s.fits

/-- A parameter set within the ranges of section 9.1. -/
def ParamSet.fits (p : ParamSet) : Prop :=
  1 ≤ p.max ∧ p.max ≤ 200000 ∧ 1 ≤ p.decks ∧ p.decks ≤ 4 ∧ 50 ≤ p.stability ∧ p.stability ≤ 200
    ∧ ∀ q ∈ p.pos.toList,
        (∀ m, q.map = some m → m ≤ 17) ∧ (∀ o, q.offset = some o → -8388608 ≤ o ∧ o ≤ 8388607)
          ∧ (∀ g, q.gain = some g → 1 ≤ g ∧ g ≤ 16777215) ∧ (∀ k, q.corner = some k → 58982 ≤ k ∧ k ≤ 72090)

/-- Site settings within the ranges of section 10.5. -/
def SiteSettings.fits (t : SiteSettings) : Prop :=
  t.waitTimer ≤ 120 ∧ 500 ≤ t.sensorSpacing ∧ t.sensorSpacing ≤ 2000 ∧ 1000 ≤ t.groupSpacing ∧ t.groupSpacing ≤ 3000
    ∧ 3 ≤ t.speedLimit ∧ t.speedLimit ≤ 15 ∧ 1 ≤ t.gapTimeout ∧ t.gapTimeout ≤ 10 ∧ t.limits.single ≤ 200000
    ∧ t.limits.tandem ≤ 200000 ∧ t.limits.triaxle ≤ 200000 ∧ t.limits.quad ≤ 200000
    ∧ (∀ n ∈ t.grossLimits.toList, n ≤ 200000) ∧ t.minorBand ≤ 10 ∧ 1 ≤ t.tareAge ∧ t.tareAge ≤ 365
    ∧ 1 ≤ t.threshold ∧ t.threshold ≤ 8 ∧ t.listLimit ≤ 2

/-- A trail record's body within its layout. -/
def TrailBody.fits : TrailBody → Prop
  | .calCommit om _ _ nm _ n g =>
    1 ≤ om ∧ om ≤ 200000 ∧ 1 ≤ nm ∧ nm ≤ 200000 ∧ 1 ≤ n ∧ n ≤ 71 ∧ g < 2 ^ 16
  | .param id old new =>
    1 ≤ id ∧ id ≤ 71 ∧ (∀ v, old = some v → paramAllows id v = true) ∧ (∀ v, new = some v → paramAllows id v = true)
      ∧ (old = none ∨ new = none → 8 ≤ id ∧ (id - 8) % 4 ≠ 0)
  | .auditResult _ _ _ _ n _ _ begun g => n ≤ 24 ∧ clockOk begun ∧ g < 2 ^ 16
  | .siteChange id old new => settingAllows id old = true ∧ settingAllows id new = true
  | .timeSet old new => (∀ v, old = some v → clockOk v) ∧ clockOk new
  | .integrityEvent _ _ q => 1 ≤ q ∧ q < 2 ^ 27
  | .archive b n u => 1 ≤ b ∧ b < 2 ^ 27 ∧ 1 ≤ n ∧ n ≤ 511 ∧ 1 ≤ u ∧ u ≤ 511

/-- A trail record within its layout. -/
def TrailRecord.fits (r : TrailRecord) : Prop :=
  (∀ v, r.time = some v → clockOk v) ∧ r.generation < 2 ^ 16 ∧ r.body.fits

end Sys2Proof.Machine

/-! ## Kinds of commands -/

namespace Sys2Proof

/-- The link, code and tag of a link command; an event, and a frame that is no command, has none. -/
def Instr.frame? : Instr → Option (Link × Byte × Byte)
  | .visitOpen tag _ _ _ _ => some (.console, 0x02#8, tag)
  | .visitAmend tag _ _ => some (.console, 0x03#8, tag)
  | .visitVoid tag _ => some (.console, 0x04#8, tag)
  | .visitRelease tag _ => some (.console, 0x05#8, tag)
  | .visitRead tag _ _ => some (.console, 0x06#8, tag)
  | .tareRead tag _ => some (.console, 0x07#8, tag)
  | .tareDelete tag _ => some (.console, 0x08#8, tag)
  | .zero tag => some (.console, 0x09#8, tag)
  | .setTime tag _ => some (.console, 0x0A#8, tag)
  | .recordRead link tag _ _ => some (link, 0x0B#8, tag)
  | .weighingRead tag _ => some (.console, 0x0C#8, tag)
  | .status link tag => some (link, 0x01#8, tag)
  | .weigh tag _ _ => some (.lane, 0x21#8, tag)
  | .bridgeRead tag => some (.lane, 0x22#8, tag)
  | .bridgeRelease tag => some (.lane, 0x23#8, tag)
  | .passRead tag _ => some (.lane, 0x24#8, tag)
  | .ticketTake tag _ => some (.inventory, 0x41#8, tag)
  | .ticketClear tag _ => some (.inventory, 0x42#8, tag)
  | .visitList tag _ => some (.inventory, 0x43#8, tag)
  | .calEnter tag => some (.service, 0x61#8, tag)
  | .calSet tag _ _ => some (.service, 0x62#8, tag)
  | .mapSet tag _ _ _ => some (.service, 0x63#8, tag)
  | .calZero tag => some (.service, 0x64#8, tag)
  | .calSpan tag _ => some (.service, 0x65#8, tag)
  | .calDeck tag _ _ => some (.service, 0x66#8, tag)
  | .calExitCommit tag => some (.service, 0x67#8, tag)
  | .calExitDiscard tag => some (.service, 0x67#8, tag)
  | .auditPoint tag _ _ _ => some (.service, 0x68#8, tag)
  | .auditBegin tag => some (.service, 0x69#8, tag)
  | .auditEnd tag => some (.service, 0x6A#8, tag)
  | .auditAbort tag => some (.service, 0x6B#8, tag)
  | .trailRead tag _ => some (.service, 0x6C#8, tag)
  | .trailArchive tag _ => some (.service, 0x6D#8, tag)
  | .siteSet tag _ _ => some (.service, 0x6E#8, tag)
  | .cellRead tag _ => some (.service, 0x6F#8, tag)
  | .cellReadSummary tag => some (.service, 0x6F#8, tag)
  | .storeCounts tag _ => some (.service, 0x70#8, tag)
  | .restart tag => some (.service, 0x71#8, tag)
  | _ => none

/-- The events that write words of the store. -/
def Instr.writesStore : Instr → Bool
  | .storeRecordWritten | .scrubWrite | .powerFailWarning _ | .powerOn _ _ | .powerFailWithdrawn => true
  | _ => false

/-- The events that begin a start-up or end one. -/
def Instr.isStartUp : Instr → Bool
  | .powerOn _ _ | .powerFailWithdrawn | .restartDrainComplete | .startUpScanEnd => true
  | _ => false

end Sys2Proof
end

