-- ==== Sys2Proof/Certificates/Slice0/Obligations.lean ====
section
/-! DEFINITION. The statements for the provers: the queue of commands, invariants every step keeps, rules over all commands,
the store's code and layouts, and for each command where it completes and with what. -/

open Sys2Proof Sys2Proof.Machine

/-! ## The queue of commands -/

/-- A step takes the command at the front and runs it on the state with the queue's rest; no command stops the machine or
touches the queue of commands; on an empty queue the controller idles. The idle step is the model's choice (log entry 8). -/
def Obligations.StepRunsFrontCommand : Prop :=
  (∀ (s : State) (c : Instr) (rest : List Instr), s.pending = c :: rest → step s = exec c { s with pending := rest })
    ∧ (∀ (c : Instr) (s : State), ∃ d : Dev, exec c s = s.goesTo d)
    ∧ ∀ s : State, s.pending = [] → step s = .next s

/-! ## Invariants -/

/-- The store's words stay in canonical form (log entry 9 for the form). -/
def Obligations.StepKeepsStoreCanonical : Prop :=
  ∀ s t : State, s.storeCanonical → step s = .next t → t.storeCanonical

/-- The write queue holds at most 16 entries, and records wait only behind a full queue (section 8.3). -/
def Obligations.StepKeepsWriteQueueBounded : Prop :=
  ∀ s t : State, s.writeQueueBounded → step s = .next t → t.writeQueueBounded

/-- The detection queue holds at most 8 detections in order of time (sections 3.1 and 3.2). -/
def Obligations.StepKeepsDetectionsOrdered : Prop :=
  ∀ s t : State, s.detectionsOrdered → step s = .next t → t.detectionsOrdered

/-- The magnitude of Z_op never exceeds the zero limit (section 2.3). -/
def Obligations.StepKeepsZeroWithinLimit : Prop :=
  ∀ s t : State, s.zeroWithinLimit → step s = .next t → t.zeroWithinLimit

/-- Each link keeps at most one pending cause of each kind, in priority order; the kinds and their order are those of the table. A
cause raised where its kind is not pending becomes pending with a repeat count of 0; one raised where its kind is pending takes that
one's place with the new data and the repeat count raised by one, holding at 255; every other pending cause, every other link and all
else stands. A link's attention line is asserted while a cause is pending and the links accept frames (section 11.4). That a break
held on a link leaves its line asserted by a cause raised meanwhile is the model's choice (log entry 80). -/
def Obligations.StepKeepsCausesOrdered : Prop :=
  (∀ s t : State, s.causesOrdered → step s = .next t → t.causesOrdered)
  -- the kinds of each link, highest priority first
  ∧ (∀ (r : Region) (slot n m : Nat) (key : Option Nat) (source : ReadSource) (cell : CellState) (status : VerStatus)
      (cause : VerifyCause) (who : Identity) (worst : Verdict) (count : Option Int) (kind : PassKind) (reason : CloseReason)
      (marks : PassMarks) (beam : BeamEnd) (b : Bool) (state : BridgeState),
    ([.storeFault r slot key source, .cellState n cell, .verifyStatus status n cause, .visitHeld n who worst,
        .visitExpired n who m, .visitDamaged n, .queueFull n m, .clockInvalid n].map (priority .console)) = [1, 2, 3, 4, 5, 6, 7, 8]
    ∧ ([.sensorMismatch count, .passClosed n kind reason m marks, .wrongWay, .beamChange beam b,
        .bridgeState state count].map (priority .lane)) = [1, 2, 3, 4, 5]
    ∧ ([.queueFull n m, .ticketAvailable n m].map (priority .inventory)) = [1, 2]
    ∧ ([.storeFault r slot key source, .calAborted b, .verifyStatus status n cause, .cellState n cell,
        .trailNearFull n m].map (priority .service)) = [1, 2, 3, 4, 5])
  -- a cause raised
  ∧ (∀ (d : Dev) (l : Link) (c : Cause),
    let before := (d.links.get l).causes
    let after := ((d.raise l c).links.get l).causes
    before.Pairwise (fun a b => priority l a.cause < priority l b.cause) →
    after.Pairwise (fun a b => priority l a.cause < priority l b.cause)
    ∧ (∀ p ∈ before, priority l p.cause = priority l c → ⟨c, min (p.repeats + 1) 255⟩ ∈ after)
    ∧ ((∀ p ∈ before, priority l p.cause ≠ priority l c) → ⟨c, 0⟩ ∈ after)
    ∧ (∀ p : Pending, priority l p.cause ≠ priority l c → (p ∈ after ↔ p ∈ before))
    ∧ (d.raise l c).links.get l = { d.links.get l with causes := after }
    ∧ (∀ m, m ≠ l → (d.raise l c).links.get m = d.links.get m)
    ∧ d.raise l c = { d with links := (d.raise l c).links })
  ∧ ∀ (d : Dev) (l : Link), d.attentionLine l = true ↔ d.phase = .running ∧ (d.links.get l).causes ≠ []

/-- The counters hold at their maxima, among them the repeat count of a pending cause, the take count of a queue entry and the gap and
sample counts of a pass, and the axles-on count at its bounds; the histories keep no more than their last values, and a transmit
queue holds at most 8 responses (sections 1.1, 1.3, 1.4, 2.1, 2.3, 3.4, 3.7, 7.1, 8.1, 8.6, 11.2, 11.3 and 11.4). That a response
formed while its queue holds 8 waits for a place is the model's choice (log entry 6). -/
def Obligations.StepKeepsCountersBounded : Prop :=
  ∀ s t : State, s.countersBounded ∧ s.historiesBounded ∧ s.transmitBounded → step s = .next t →
    t.countersBounded ∧ t.historiesBounded ∧ t.transmitBounded

/-- Every step keeps a pass OPEN only in ENTERING, with at most one entry of the write queue reporting a WEIGH, and that one only
while the bridge is RECORDING (sections 2.1, 2.4, 3.3 and 3.7). -/
def Obligations.StepKeepsOpenPassEntering : Prop :=
  ∀ s t : State, s.openPassEntering → step s = .next t → t.openPassEntering

/-- The invariants hold right after reset. -/
def Obligations.ResetMeetsInvariants : Prop :=
  State.reset.storeCanonical ∧ State.reset.writeQueueBounded ∧ State.reset.detectionsOrdered
    ∧ State.reset.zeroWithinLimit ∧ State.reset.causesOrdered ∧ State.reset.countersBounded
    ∧ State.reset.historiesBounded ∧ State.reset.transmitBounded ∧ State.reset.tablesBounded ∧ State.reset.openPassEntering

/-! ## Rules over all commands -/

/-- Every step, the end of the start-up scan with its rebuilding among them, keeps the register at 64 visits, the ticket queue at
32 entries and the stored tares in their slots (sections 5.1, 6.1 and 7.1). That a scan of more tickets than the queue holds
leaves them out is the model's choice (log entry 54). -/
def Obligations.StepKeepsTablesBounded : Prop :=
  ∀ s t : State, s.storeCanonical ∧ s.tablesBounded → step s = .next t → t.tablesBounded

/-- Only a record write, a scrub write, the power-fail warning and the supply's return change a word of the store. The clock changes
at its second, at SET TIME, at the write of SET TIME's record and at power-on, and at nothing else. Z_op changes through ZERO, zero
tracking, the completion of CAL ZERO, a calibration commit and a start-up alone (sections 2.3, 8.1 to 8.4, 10.5 and 11.5). That SET
TIME sets the clock at admission and its record's write once more is the model's reading of two rules (log entry 10). -/
def Obligations.OnlyTheirEventsChangeStoreClockZero : Prop :=
  (∀ (c : Instr) (s t : State), c.writesStore = false → exec c s = .next t → t.dev.nv = s.dev.nv)
  ∧ (∀ (c : Instr) (s t : State), c ≠ .clockSecond → c ≠ .storeRecordWritten → (∀ g x, c ≠ .setTime g x) →
    (∀ n b, c ≠ .powerOn n b) → exec c s = .next t → t.dev.clock = s.dev.clock)
  ∧ ∀ (c : Instr) (s t : State), (∀ g, c ≠ .zero g) → c ≠ .zeroTracking → c ≠ .calZeroComplete →
    (∀ g, c ≠ .calExitCommit g) → c.isStartUp = false → exec c s = .next t →
    t.dev.weighing.zOp = s.dev.weighing.zOp

/-- Weighing and ticket numbers are given one at a time, at a bridge sample, none above 99,999,999, and no ticket number is
given without a weighing number (sections 6.2 and 6.3). -/
def Obligations.NumbersAreGivenAtBridgeSamples : Prop :=
  (∀ (c : Instr) (s t : State), c ≠ .bridgeSample → c.isStartUp = false → exec c s = .next t →
    t.dev.tickets.lastWeighing = s.dev.tickets.lastWeighing ∧ t.dev.tickets.lastTicket = s.dev.tickets.lastTicket)
  ∧ ∀ s t : State, exec .bridgeSample s = .next t →
    let w := s.dev.tickets.lastWeighing
    let k := s.dev.tickets.lastTicket
    (t.dev.tickets.lastWeighing = w ∧ t.dev.tickets.lastTicket = k)
      ∨ (t.dev.tickets.lastWeighing = w + 1 ∧ w < 99999999
        ∧ (t.dev.tickets.lastTicket = k ∨ (t.dev.tickets.lastTicket = k + 1 ∧ k < 99999999)))

/-- The current parameter set and the generation change at a commit and at a start-up alone, the settings at SITE SET and a
start-up alone; the verification status changes at a commit, an audit's end and a start-up, and otherwise only to INTEGRITY,
where a patrol or a TRAIL READ finds a damaged trail record (sections 9.5, 10.3, 10.5 and 10.6). -/
def Obligations.ParametersChangeAtCommits : Prop :=
  ∀ (c : Instr) (s t : State), c.isStartUp = false → exec c s = .next t →
    ((∀ g, c ≠ .calExitCommit g) →
      t.dev.metro.current = s.dev.metro.current ∧ t.dev.metro.generation = s.dev.metro.generation)
    ∧ ((∀ g i v, c ≠ .siteSet g i v) → t.dev.metro.site = s.dev.metro.site)
    ∧ ((∀ g, c ≠ .calExitCommit g) → (∀ g, c ≠ .auditEnd g) →
      t.dev.metro.status = s.dev.metro.status
        ∨ (t.dev.metro.status = .integrity ∧ (c = .patrol ∨ ∃ g q, c = .trailRead g q)))

/-- A command of a link that accepts no frames, or that a break holds, brings nothing (sections 11.2, 11.3 and 11.6). -/
def Obligations.ClosedLinksTakeNoCommands : Prop :=
  ∀ (c : Instr) (s : State) (l : Link) (code tag : Byte), c.frame? = some (l, code, tag) →
    (s.dev.phase ≠ .running ∨ (s.dev.links.get l).breakHeld = true) → exec c s = .next s

/-- A command that finds its link's slot EXECUTING is answered BUSY by the link unit and does nothing else. A complete frame whose
code its link does not have, or whose length its layout does not allow, is answered INVALID; a CAL EXIT whose kind is neither COMMIT
nor DISCARD is answered RANGE (sections 11.3 and 9.5). That a command whose response waits for a place in the transmit queue counts as
executing, and that such a CAL EXIT comes as this command and not as one of the two rows of CAL EXIT, are the model's choices (log
entries 6 and 41). -/
def Obligations.BusyAndUnknownFramesAreAnswered : Prop :=
  (∀ (c : Instr) (s : State) (l : Link) (code tag : Byte), c.wf = true → c.frame? = some (l, code, tag) →
    s.dev.phase = .running → (s.dev.links.get l).breakHeld = false →
    ((s.dev.links.get l).slot ≠ none ∨ (s.dev.links.get l).waiting ≠ []) →
    exec c s = s.goesTo (s.dev.unitAnswer l code tag .busy))
  ∧ (∀ (s : State) (l : Link) (code tag : Byte) (rest : List Byte), s.dev.phase = .running →
    (s.dev.links.get l).breakHeld = false → (bodyLengths l code.toNat).contains (rest.length + 2) = false →
    exec (.unknownCommandFrame l (code :: tag :: rest)) s = s.goesTo (s.dev.unitAnswer l code tag .invalid))
  ∧ ∀ (s : State) (tag kind : Byte), s.dev.ready .service → kind ≠ 1#8 → kind ≠ 2#8 →
    exec (.unknownCommandFrame .service [0x67#8, tag, kind]) s
      = s.goesTo (s.dev.unitAnswer .service 0x67#8 tag .range)

/-- A field outside its encoded range is answered RANGE by the link unit and the command does nothing else; a value outside the
range its block gives it is answered RANGE by the block, with nothing changed (section 11.3 with each command's own section, and
appendix A.3 for the fields). That visit number 0 is outside its range, and that the block answers RANGE to the value of a SITE SET,
are the model's choices (log entries 23 and 87). -/
def Obligations.OutOfRangeFieldsAnswerRange : Prop :=
  (∀ (len : Byte) (chars : List Byte), chars.length = 16 →
    (identityOfBytes (len :: chars) ≠ none ↔
      1 ≤ len.toNat ∧ len.toNat ≤ 16 ∧ (∀ b ∈ chars.drop len.toNat, b = 0#8)
        ∧ ∀ b ∈ chars.take len.toNat,
            (48 ≤ b.toNat ∧ b.toNat ≤ 57) ∨ (65 ≤ b.toNat ∧ b.toNat ≤ 90) ∨ b.toNat = 45))
  ∧ ∀ (s : State) (tag : Byte),
    let unit := fun (l : Link) (code : Byte) => s.goesTo (s.dev.unitAnswer l code tag .range)
    let block := fun (code : Byte) => s.goesTo (s.dev.respond .service code tag .range .none)
    let notNumber := fun (n : Word) => n = 0#32 ∨ 99999999 < n.toNat
    let notMass := fun (n : Word) => n = 0#32 ∨ 200000 < n.toNat
    (s.dev.ready .lane →
      (∀ first : Byte, 24 < first.toNat → exec (.passRead tag first) s = unit .lane 0x24#8)
      ∧ ∀ (purpose : Byte) (identity : List Byte), identity.length = 17 →
        (purpose ≠ 1#8 ∧ purpose ≠ 2#8) ∨ identityOfBytes identity = none →
        exec (.weigh tag purpose identity) s = unit .lane 0x21#8)
    ∧ (s.dev.ready .console →
      (∀ (identity : List Byte) (direction : Byte) (commodity : Half) (onePass : Byte), identity.length = 17 →
        identityOfBytes identity = none ∨ (direction ≠ 1#8 ∧ direction ≠ 2#8) ∨ 999 < commodity.toNat ∨ 2 ≤ onePass.toNat →
        exec (.visitOpen tag identity direction commodity onePass) s = unit .console 0x02#8)
      ∧ (∀ visit commodity : Half, visit = 0#16 ∨ commodity = 0#16 ∨ 999 < commodity.toNat →
        exec (.visitAmend tag visit commodity) s = unit .console 0x03#8)
      ∧ exec (.visitVoid tag 0#16) s = unit .console 0x04#8 ∧ exec (.visitRelease tag 0#16) s = unit .console 0x05#8
      ∧ (∀ (part : Byte) (n : Half), 4 < part.toNat ∨ n = 0#16 →
        exec (.visitRead tag part (.number n)) s = unit .console 0x06#8)
      ∧ (∀ (part : Byte) (identity : List Byte), identity.length = 17 → 4 < part.toNat ∨ identityOfBytes identity = none →
        exec (.visitRead tag part (.identity identity)) s = unit .console 0x06#8)
      ∧ (∀ identity : List Byte, identity.length = 17 → identityOfBytes identity = none →
        exec (.tareRead tag identity) s = unit .console 0x07#8 ∧ exec (.tareDelete tag identity) s = unit .console 0x08#8)
      ∧ exec (.setTime tag 4294967295#32) s = unit .console 0x0A#8
      ∧ (∀ n : Word, notNumber n → exec (.weighingRead tag n) s = unit .console 0x0C#8)
      ∧ ∀ (part : Byte) (n : Word), notNumber n ∨ 4 < part.toNat → exec (.recordRead .console tag part n) s = unit .console 0x0B#8)
    ∧ (s.dev.ready .inventory →
      (∀ (part : Byte) (n : Word), notNumber n ∨ 4 < part.toNat →
        exec (.recordRead .inventory tag part n) s = unit .inventory 0x0B#8)
      ∧ (∀ part : Byte, 4 < part.toNat → exec (.ticketTake tag part) s = unit .inventory 0x41#8)
      ∧ ∀ n : Word, notNumber n → exec (.ticketClear tag n) s = unit .inventory 0x42#8)
    ∧ (s.dev.ready .service →
      (∀ (id : Byte) (value : Word), id = 0#8 ∨ 71 < id.toNat → exec (.calSet tag id value) s = unit .service 0x62#8)
      ∧ (∀ deck corner port : Byte, deck = 0#8 ∨ 4 < deck.toNat ∨ corner = 0#8 ∨ 4 < corner.toNat
          ∨ (18 ≤ port.toNat ∧ port.toNat ≤ 254) →
        exec (.mapSet tag deck corner port) s = unit .service 0x63#8)
      ∧ (∀ mass : Word, notMass mass → exec (.calSpan tag mass) s = unit .service 0x65#8)
      ∧ (∀ (deck : Byte) (mass : Word), deck = 0#8 ∨ 4 < deck.toNat ∨ notMass mass →
        exec (.calDeck tag deck mass) s = unit .service 0x66#8)
      ∧ (∀ (kind deck : Byte) (reference : Word), kind = 0#8 ∨ 5 < kind.toNat →
        exec (.auditPoint tag kind deck reference) s = unit .service 0x68#8)
      ∧ (∀ (id : Byte) (value : Word), id = 0#8 ∨ 44 < id.toNat → exec (.siteSet tag id value) s = unit .service 0x6E#8)
      ∧ (∀ port : Byte, 18 ≤ port.toNat → port.toNat ≤ 254 → exec (.cellRead tag port) s = unit .service 0x6F#8)
      ∧ (∀ clear : Byte, 2 ≤ clear.toNat → exec (.storeCounts tag clear) s = unit .service 0x70#8)
      ∧ (∀ (id : Byte) (value : Word), 1 ≤ id.toNat → id.toNat ≤ 44 → s.dev.metro.site.set? id.toNat value.toInt = none →
        exec (.siteSet tag id value) s = block 0x6E#8)
      ∧ (∀ n : Word, s.dev.metro.lastSeq < n.toNat → exec (.trailArchive tag n) s = block 0x6D#8)
      ∧ (∀ w : ParamSet, s.dev.metro.working = some w →
        (∀ (id : Byte) (value : Word), 1 ≤ id.toNat → id.toNat ≤ 71 → w.set? id.toNat value.toInt = none →
          exec (.calSet tag id value) s = block 0x62#8)
        ∧ ∀ (deck : Byte) (mass : Word), w.decks < deck.toNat → deck.toNat ≤ 4 → ¬ notMass mass →
          exec (.calDeck tag deck mass) s = block 0x66#8)
      ∧ ∀ (u : Session) (kind deck : Byte) (k : PointKind) (reference : Word), s.dev.metro.session = some u →
        u.waiting = none → u.points.length < 24 → pointKindOfByte kind = some k →
        (k = .zero ∧ reference ≠ 0#32) ∨ (k ≠ .zero ∧ notMass reference)
          ∨ (k = .deck ∧ (deck = 0#8 ∨ u.decks < deck.toNat)) →
        exec (.auditPoint tag kind deck reference) s = block 0x68#8)

/-- A change of the bridge state leaves BRIDGE_STATE pending on the lane link with the new state (section 2.1). At a break on the
lane link in WAITING this rests on log entry 36, a choice of the model: the causes are cleared first and the cause raised after. -/
def Obligations.BridgeChangeRaisesCause : Prop :=
  ∀ (c : Instr) (s t : State), c.isStartUp = false → exec c s = .next t → t.dev.bridge.state ≠ s.dev.bridge.state →
    ∃ p ∈ t.dev.links.lane.causes, ∃ n, p.cause = .bridgeState t.dev.bridge.state n

/-! ## The code of a store word (section 8.1) -/

/-- R136: the syndrome's bit j is the parity of the positions from 1 to 38 whose number has bit j set, the overall parity that
of all 39 bits, and the word is classed and delivers its data by the table; a syndrome that names a check bit's position
delivers the data as read. -/
def Obligations.WordIsClassedBySyndrome : Prop :=
  ∀ w : StoreWord,
    let ones := fun (sel : Nat → Bool) => ((List.range 39).filter fun p => sel p && w.getLsbD p).length
    let odd := ones (fun _ => true) % 2 = 1
    syndrome w < 64
    ∧ (∀ j < 6, (syndrome w).testBit j = decide (ones (fun p => decide (1 ≤ p) && p.testBit j) % 2 = 1))
    ∧ (syndrome w = 0 → ¬ odd → readClass w = (.clean, some (dataOf w)))
    ∧ (syndrome w = 0 → odd → readClass w = (.correctedCheck, some (dataOf w)))
    ∧ (1 ≤ syndrome w → syndrome w ≤ 38 → odd →
        readClass w = (.corrected, some (dataOf (w ^^^ (1#39 <<< syndrome w)))))
    ∧ (39 ≤ syndrome w → odd → readClass w = (.double, none))
    ∧ (1 ≤ syndrome w → ¬ odd → readClass w = (.double, none))
    ∧ ∀ j < 6, dataOf (w ^^^ (1#39 <<< (2 ^ j : Nat))) = dataOf w

/-- A word as written holds its data bits at their positions, an even number of ones in every check group and in all 39 bits; the
encoding of 0 is the all-zero word. Read as written it is CLEAN; with any one bit inverted it is corrected to the data written;
with any two inverted it is DOUBLE and delivers nothing; and the poison pattern is DOUBLE with syndrome 48 (sections 8.1 and
8.4). -/
def Obligations.CodePlacesCorrectsAndDetects : Prop :=
  ∀ d : Word,
    let w := encodeWord d
    let places := [3, 5, 6, 7, 9, 10, 11, 12, 13, 14, 15, 17, 18, 19, 20, 21, 22, 23, 24, 25, 26, 27, 28, 29, 30, 31, 33, 34,
      35, 36, 37, 38]
    let ones := fun (sel : Nat → Bool) => ((List.range 39).filter fun p => sel p && w.getLsbD p).length
    ((∀ i < 32, w.getLsbD (places[i]?.getD 0) = d.getLsbD i) ∧ (∀ j < 6, ones (fun p => p.testBit j) % 2 = 0)
      ∧ ones (fun _ => true) % 2 = 0 ∧ encodeWord 0#32 = 0#39)
    ∧ readClass (encodeWord d) = (.clean, some d)
    ∧ (∀ p < 39, readClass (encodeWord d ^^^ (1#39 <<< p)) = (if p = 0 then .correctedCheck else .corrected, some d))
    ∧ (∀ p < 39, ∀ q < 39, p ≠ q →
        readClass (encodeWord d ^^^ (1#39 <<< p) ^^^ (1#39 <<< q)) = (.double, none))
    ∧ readClass (poisonWord d) = (.double, none) ∧ syndrome (poisonWord d) = 48

/-! ## The layouts of the store (appendix A.4) -/

/-- Weighing records, tare entries, the parameter block and the counters block within their layouts read back as they were
written. -/
def Obligations.WeighingsTaresAndBlocksReadBack : Prop :=
  (∀ w : WeighingRecord, w.fits → weighingOfWords w.number (weighingWords w) = some w)
  ∧ (∀ e : TareEntry, e.fits → tareOfWords e.slot e.weighing (tareWords e) = some e)
  ∧ (∀ (p : ParamSet) (g : Nat) (t : SiteSettings), p.fits → g < 2 ^ 16 → t.fits →
    paramOfWords (paramWords p g t) = some (p, g, t))
  ∧ ∀ (g : Nat) (st : VerStatus) (q : Nat), g < 2 ^ 16 → q < 2 ^ 27 →
    countersOfWords (countersSpec g st q).body = some (g, st, q)

/-- Trail records of every kind within their layouts read back as they were written. -/
def Obligations.TrailRecordsReadBack : Prop :=
  ∀ r : TrailRecord, r.fits → trailOfWords r.sequence (trailSpec r).body = some r

/-- Visits with their closing numbers, and tickets, read back as they were written, their axle summaries with them. -/
def Obligations.VisitsAndTicketsReadBack : Prop :=
  (∀ (v : Visit) (closing : Option Nat), v.fits → (∀ n, closing = some n → numberOk n) →
    visitOfWords v.slot v.number (visitWords v closing) = some (v, closing))
  ∧ ∀ t : Ticket, t.fits → ticketOfWords t.number (ticketWords t false) = some t

/-- A record wholly written reads back sound, word for word, its unused words 0, with its kind, copy count and key in its
completion word; every word outside it reads as before (sections 8.2 and 8.3). -/
def Obligations.WrittenRecordReadsBack : Prop :=
  ∀ (nv : Memory) (spec : RecordSpec) (copy count : Nat), nv.wf = true → 1 ≤ spec.kind → spec.kind ≤ 7 → count ≤ 3 →
    spec.key < 2 ^ 27 → spec.body.length + 2 ≤ spec.region.words →
    let after := Memory.writeAll nv (recordWords spec copy count)
    let reads := readCopy after spec.region spec.slot copy
    let base := recordBase spec.region spec.slot copy
    findSlot reads = .words (spec.body ++ List.replicate (spec.region.words - 2 - spec.body.length) 0#32)
      ∧ (∀ r ∈ reads, r.cls = .clean)
      ∧ (reads.getLast?.bind (·.data)).map headerFields = some (spec.kind, count, spec.key)
      ∧ ∀ a, (a < base ∨ base + spec.region.words ≤ a) → Memory.read after a = Memory.read nv a

/-! ## The tables of the manual -/

/-- R26: what a crossing does to the axles-on count and whether it is a leaving crossing, by the entry end and the pass; an
UNKNOWN count is not adjusted; in EMPTY no crossing is counted or changes the state; in START none is taken account of. The
entry end is PAIR at start-up and after a release, and is set by the opening of a pass. -/
def Obligations.CrossingsAreClassedByTable : Prop :=
  (∀ (e : EntryEnd) (o f : Bool), crossingClass .forward e o f = (1, false))
  ∧ (∀ o f : Bool, crossingClass .backward .pair o f = (-1, false) ∧ crossingClass .backward .x o f = (-1, true))
  ∧ crossingClass .exit .pair true false = (-1, true) ∧ crossingClass .exit .pair true true = (-1, false)
  ∧ (∀ f : Bool, crossingClass .exit .pair false f = (-1, true) ∧ crossingClass .exit .x true f = (1, false)
      ∧ crossingClass .exit .x false f = (-1, true))
  ∧ (∀ a b : Bool, (Bridge.start a b).entryEnd = .pair) ∧ (∀ d : Dev, d.applyRelease.bridge.entryEnd = .pair)
  ∧ (∀ (d : Dev) (k : PassKind) (e : EntryEnd) (f : Bool) (n : Nat), (d.openPass k e f n).bridge.entryEnd = e)
  ∧ (∀ k : Int, adjustCount none k = none)
  ∧ (∀ c k : Int, -255 ≤ c + k → c + k ≤ 255 → adjustCount (some c) k = some (c + k))
  ∧ (∀ (d : Dev) (k : CrossingKind), d.bridge.state = .empty ∨ d.bridge.state = .start → d.bridgeCrossing k = d)
  ∧ ∀ (d : Dev) (k : CrossingKind), d.bridge.state ≠ .empty → d.bridge.state ≠ .start →
      let current := d.axle.pass.filter (fun p => p.state == .opened)
      let cl := crossingClass k d.bridge.entryEnd current.isSome (current.any (·.marks.followOn))
      (d.bridgeCrossing k).bridge.count = adjustCount d.bridge.count cl.1
        ∧ (d.bridge.state = .standing → (d.bridgeCrossing k).bridge.state = if cl.2 then .leaving else .standing)

/-- The verdict of a reported weight W against a limit L with a band, both in kilograms; the group records of a summary, each with
its first axle, its type by its axle count, its load rounded to e and its verdict against the limit for its type, the gross check, and
the worst verdict; the judgment of a stored tare, the trade status of a ticket and the permissible error of an audit point, by their
tables (sections 4.1, 4.2, 4.4, 6.1, 6.3 and 10.1). -/
def Obligations.JudgmentsFollowTables : Prop :=
  ((∀ (w : Int) (band : Nat), verdictOf (10 * w) 0 band = .unchecked)
    ∧ (∀ (w : Int) (l band : Nat), l ≠ 0 → w ≤ l → verdictOf (10 * w) l band = .within)
    ∧ (∀ (w : Int) (l band : Nat), l ≠ 0 → l < w → 100 * (w - l) ≤ l * band → verdictOf (10 * w) l band = .minor)
    ∧ (∀ (w : Int) (l band : Nat), l ≠ 0 → l < w → ¬ 100 * (w - l) ≤ l * band → verdictOf (10 * w) l band = .major)
    ∧ (∀ (w : Int) (l : Nat), l ≠ 0 → l < w → verdictOf (10 * w) l 0 = .major)
    ∧ verdictOf 210400 20000 5 = .major ∧ verdictOf 210400 20000 6 = .minor ∧ verdictOf 140200 16500 5 = .within)
  ∧ (∀ s : AxleSummary,
    let verdicts := s.grossVerdict :: s.reports.map (·.verdict)
    s.reports.length = s.groups.length
    ∧ (∀ (before after : List AxleGroup) (g : AxleGroup), s.groups = before ++ g :: after →
      let type : GroupType :=
        if g.count = 1 then .single else if g.count = 2 then .tandem else if g.count = 3 then .triaxle
        else if g.count = 4 then .quad else .irregular
      let limit := match type with
        | .single => s.limits.single | .tandem => s.limits.tandem | .triaxle => s.limits.triaxle | .quad => s.limits.quad
        | .irregular => 0
      let reported := roundTo g.load (10 * s.e.kg)
      s.reports[before.length]? = some
        { first := 1 + (before.map (·.count)).sum, count := g.count, type := type, load := g.load, reported := reported,
          limit := limit, verdict := verdictOf reported limit s.band })
    ∧ s.grossVerdict = verdictOf (roundTo (sumInt (s.groups.map (·.load))) (10 * s.e.kg)) s.grossLimit s.band
    ∧ (s.worst = .major ↔ .major ∈ verdicts)
    ∧ (s.worst = .minor ↔ .major ∉ verdicts ∧ .minor ∈ verdicts)
    ∧ (s.worst = .within ↔ .major ∉ verdicts ∧ .minor ∉ verdicts ∧ .within ∈ verdicts)
    ∧ (s.worst = .unchecked ↔ ∀ v ∈ verdicts, v = .unchecked))
  ∧ (∀ (e : TareEntry) (time gen days : Nat),
    (e.generation ≠ gen → judge e time gen days = .generation)
    ∧ (e.generation = gen → time < e.time → judge e time gen days = .future)
    ∧ (e.generation = gen → e.time ≤ time → days * 86400 < time - e.time → judge e time gen days = .age)
    ∧ (e.generation = gen → e.time ≤ time → time - e.time ≤ days * 86400 → judge e time gen days = .valid))
  ∧ (∀ (t : Tickets) (id : Identity) (time gen days : Nat), (∀ e ∈ t.tares, e.identity ≠ id) →
    t.judgeId id time gen days = .absent)
  ∧ (∀ (g t : Nat) (a b : VerStatus), forTrade g t a b = true ↔ g = t ∧ a = .verified ∧ b = .verified)
  ∧ (∀ (g t : Nat) (a b : VerStatus),
    ((tradeReasons g t a b).mixedCal = true ↔ g ≠ t)
    ∧ ((tradeReasons g t a b).pendingVerify = true ↔ a = .pending ∨ b = .pending)
    ∧ ((tradeReasons g t a b).failedVerify = true ↔ a = .failed ∨ b = .failed)
    ∧ ((tradeReasons g t a b).integrity = true ↔ a = .integrity ∨ b = .integrity))
  ∧ ∀ (e : Interval) (l : Int),
    (l ≤ 5000 * e.kg → mpeOf e false l = 5 * e.kg)
    ∧ (5000 * e.kg < l → l ≤ 20000 * e.kg → mpeOf e false l = 10 * e.kg)
    ∧ (20000 * e.kg < l → mpeOf e false l = 15 * e.kg) ∧ mpeOf e true l = 2 * mpeOf e false l

/-! ## Where the events complete -/

/-- SAMPLE_FRAME: an accepted frame gives the port its latest value, not held, and raises its good-sample count; a discarded one is
a failed sample and a check error; the state moves by the table, and CELL_STATE is raised on entering and leaving FAULT alone; a
frame of which a byte came before the scan's end, given with no bytes, changes nothing (sections 1.1 and 1.5, appendix A.2). That
the sender of the event tells which frames those are is the model's choice (log entry 58). -/
def Obligations.SampleFrameUpdatesPort : Prop :=
  ∀ (s : State) (p : Fin 18), s.dev.phase = .startWrites ∨ s.dev.phase = .running →
    let r := s.dev.port p.val
    let goods := min (r.goods + 1) 65535
    let fails := min (r.fails + 1) 255
    (∀ b0 b1 b2 b3 b4 : Byte, b0 + b1 + b2 + b3 + b4 = 0#8 →
      ∃ t : Dev, exec (.sampleFrame p [b0, b1, b2, b3, b4]) s = s.goesTo t
        ∧ t.port p.val =
          { latest := some ⟨(b0 ++ b1 ++ b2 : BitVec 24).toInt, b3.getLsbD 0⟩, arrival := true, fresh := true, fails := 0,
            goods := goods, checkErrors := r.checkErrors,
            state := match r.state with
              | .absent => .absent | .ok => .ok | .suspect => .ok | .fault => if 100 ≤ goods then .ok else .fault }
        ∧ (∀ q : Fin 18, q ≠ p → t.port q.val = s.dev.port q.val)
        ∧ t = { s.dev with cells := t.cells, links := t.links }
        ∧ t.links = if r.state = .fault ∧ 100 ≤ goods then (s.dev.raiseBoth (.cellState p.val .ok)).links else s.dev.links)
    ∧ exec (.sampleFrame p []) s = .next s
    ∧ ∀ bytes : List Byte, bytes ≠ [] → bytes.length ≠ 5 ∨ bytes.foldl (· + ·) 0#8 ≠ 0#8 →
      ∃ t : Dev, exec (.sampleFrame p bytes) s = s.goesTo t
        ∧ t.port p.val =
          { latest := r.latest, arrival := true, fresh := r.fresh, fails := fails, goods := 0,
            checkErrors := min (r.checkErrors + 1) 65535,
            state := match r.state with
              | .absent => .absent | .ok => .suspect | .suspect => if 10 ≤ fails then .fault else .suspect
              | .fault => .fault }
        ∧ (∀ q : Fin 18, q ≠ p → t.port q.val = s.dev.port q.val)
        ∧ t = { s.dev with cells := t.cells, links := t.links }
        ∧ t.links =
          if r.state = .suspect ∧ 10 ≤ fails then (s.dev.raiseBoth (.cellState p.val .fault)).links else s.dev.links

/-- BRIDGE_SAMPLE: the cell values, the gross, the filtered gross, stability, range and indications by the stages of sections 1.3 and
1.4, over the histories as they stand (emptied first where that is due), with Z_op unchanged; each reason for which the sample is
INVALID, CELL_FAULT with the ports as this sample's read leaves them: an arrival mark cleared, or a stale sample counted, a port that
reaches ten failures in FAULT with CELL_STATE raised; the tracking count raised by one on a quiet, empty, VALID bridge and set to 0
otherwise; no word of the store and no second of the clock changes (sections 1.1, 1.3, 1.4 and 2.3). That every reason of a position
is given, UNSET and no NO_VALUE beside UNMAPPED for one sent to ABSENT, and that the tracking count is judged with the bridge state as
the sample finds it, are the model's readings (log entries 18 and 13); which port CELL_STATE names where several fall is its choice
(log entry 47). -/
def Obligations.BridgeSampleComputesResult : Prop :=
  ∀ s : State, s.dev.phase = .startWrites ∨ s.dev.phase = .running →
    let set := s.dev.inForce
    let w := s.dev.weighing
    let faulted := fun (p : Nat) => (s.dev.port p).state = .fault
      ∨ ((s.dev.port p).state = .suspect ∧ (s.dev.port p).arrival = false ∧ 9 ≤ (s.dev.port p).fails)
    let value (i : Nat) : Int :=
      match (set.at i).offset, (set.at i).gain, (set.at i).corner, (set.at i).map.bind fun p => (s.dev.port p).latest with
      | some o, some g, some k, some l => roundDiv (roundDiv ((l.count - o) * g) 16777216 * k) 65536
      | _, _, _, _ => 0
    let gross := sumInt ((List.range set.decks).map fun deck =>
      sumInt ((set.requiredList.filter fun i => i / 4 == deck).map value)) - w.zOp
    let filter := pushLast 32 (if w.emptyDue then [] else w.filterHist) gross
    let filtered := meanInt (lastOf set.window.size filter)
    let stab := pushLast 200 (if w.emptyDue then [] else w.stabHist) filtered
    let taken := min ((if w.emptyDue then 0 else w.samples) + 1) 65535
    let saturated := ((List.range 18).filter set.inUse).any fun p => (s.dev.port p).latest.any (·.saturated)
    ∃ t : Dev, exec .bridgeSample s = s.goesTo t
      ∧ t.weighing.last.cellValues.map (fun v => (v.pos, v.port, v.value))
        = set.requiredList.map (fun i => (i, (set.at i).map, value i))
      ∧ (∀ v ∈ t.weighing.last.cellValues, v.faulty = true ↔
          v.port = none ∨ ∃ p, v.port = some p ∧ (faulted p ∨ (s.dev.port p).latest = none))
      ∧ t.weighing.last.gross = gross ∧ t.weighing.last.filtered = filtered
      ∧ (t.weighing.last.invalid.cellFault = true ↔ ∃ p < 18, set.inUse p = true ∧ faulted p)
      ∧ (t.weighing.last.invalid.noValue = true ↔
          ∃ i ∈ set.requiredList, ∃ p, (set.at i).map = some p ∧ (s.dev.port p).latest = none)
      ∧ (t.weighing.last.invalid.unset = true ↔
          ∃ i ∈ set.requiredList, (set.at i).offset = none ∨ (set.at i).gain = none ∨ (set.at i).corner = none)
      ∧ (t.weighing.last.invalid.unmapped = true ↔
          (∃ i ∈ set.requiredList, (set.at i).map = none) ∨ ∀ i ∈ set.requiredList, (set.at i).map = none)
      ∧ t.weighing.last.saturated = saturated
      ∧ t.weighing.filterHist = filter ∧ t.weighing.stabHist = stab
      ∧ t.weighing.baseline = pushLast 32 (if w.emptyDue then [] else w.baseline) gross
      ∧ t.weighing.samples = taken ∧ t.weighing.zOp = w.zOp ∧ t.weighing.emptyDue = false
      ∧ (t.weighing.last.stable = true ↔
          set.stability ≤ taken ∧ spanInt (lastOf set.stability stab) ≤ 10 * (set.e.kg : Int))
      ∧ t.weighing.last.range =
          (if saturated ∨ filtered > 10 * ((set.max : Int) + 9 * set.e.kg) then .over
            else if filtered < -200 * (set.e.kg : Int) then .under else .within)
      ∧ t.weighing.last.indicated =
          (if t.weighing.last.range = .within then some (roundTo filtered (10 * set.e.kg)) else none)
      ∧ t.weighing.last.expanded = (if t.weighing.last.range = .within then some (roundTo filtered set.e.kg) else none)
      ∧ t.nv = s.dev.nv ∧ t.clock = s.dev.clock ∧ t.pins = s.dev.pins ∧ t.phase = s.dev.phase
      -- the ports as this sample's read leaves them
      ∧ (∀ p : Fin 18, t.port p.val =
          let r := s.dev.port p.val
          if set.inUse p.val = false then { r with fresh := false }
          else if r.arrival = true then { r with arrival := false, fresh := false }
          else { r with
            fails := min (r.fails + 1) 255, goods := 0, fresh := false,
            state := match r.state with
              | .absent => .absent | .ok => .suspect | .suspect => if 9 ≤ r.fails then .fault else .suspect
              | .fault => .fault })
      ∧ (let falls := fun (p : Nat) => set.inUse p = true ∧ (s.dev.port p).state = .suspect ∧ (s.dev.port p).arrival = false
            ∧ 9 ≤ (s.dev.port p).fails
          ∀ l : Link, l = .console ∨ l = .service →
            (∀ p < 18, falls p → (∀ q < 18, p < q → ¬ falls q) →
              ∃ c ∈ (t.links.get l).causes, c.cause = .cellState p .fault)
            ∧ ((∀ p < 18, ¬ falls p) →
              ∀ c ∈ (t.links.get l).causes, ∀ p st, c.cause = .cellState p st → c ∈ (s.dev.links.get l).causes))
      -- the tracking count
      ∧ t.weighing.tracking =
          (if set.tracking = true ∧ s.dev.metro.working = none ∧ s.dev.metro.session = none ∧ s.dev.bridge.state = .empty
              ∧ t.weighing.last.stable = true ∧ t.weighing.last.invalid.any = false
              ∧ (filtered.natAbs : Int) ≤ 5 * (set.e.kg : Int) then min (w.tracking + 1) 100
            else 0)

/-- BRIDGE_SAMPLE for the bridge monitor and the axle unit: the first stable sample takes START to EMPTY or, at or above the empty
threshold, to STANDING with an UNKNOWN count and no pass; a load that came unseen takes EMPTY there too, with SENSOR_MISMATCH; a
stable sample below the threshold empties a STANDING or LEAVING bridge, a count other than 0 reported by SENSOR_MISMATCH; in every
other case the state stands. An OPEN pass takes the sample into its running windows, from progress 20 on into their sums, raises its
sample and gap counts, and is marked CELL_FAULT by an INVALID sample (sections 2.1, 2.2, 3.5 and 3.7). -/
def Obligations.BridgeSampleMovesBridge : Prop :=
  ∀ s : State, s.dev.takesEvents → s.dev.bridge.state ≠ .waiting →
    ∃ t : Dev, exec .bridgeSample s = s.goesTo t ∧
      let x := t.weighing.last
      let low : Prop := x.filtered < 200 * (s.dev.inForce.e.kg : Int)
      let b : Bridge :=
        { s.dev.bridge with
          entryBeam := { s.dev.bridge.entryBeam with atSample := s.dev.bridge.entryBeam.blocked },
          exitBeam := { s.dev.bridge.exitBeam with atSample := s.dev.bridge.exitBeam.blocked } }
      let raised := fun (c : Cause) => ∃ p ∈ t.links.lane.causes, p.cause = c
      let noMismatch := ∀ p ∈ t.links.lane.causes, ∀ n, p.cause = .sensorMismatch n → p ∈ s.dev.links.lane.causes
      let unseen : Prop := x.stable = true ∧ ¬ low ∧ (b.state = .start ∨ b.state = .empty)
      let emptied : Prop := x.stable = true ∧ low ∧ (b.state = .standing ∨ b.state = .leaving)
      (unseen → t.bridge = { b with state := .standing, count := none, entryEnd := .pair }
        ∧ raised (.bridgeState .standing none)
        ∧ (b.state = .start → noMismatch) ∧ (b.state = .empty → raised (.sensorMismatch none)))
      ∧ (b.state = .start → x.stable = true → low →
        t.bridge = { b with state := .empty, count := some 0 } ∧ raised (.bridgeState .empty (some 0)) ∧ noMismatch)
      ∧ (emptied → t.bridge = { b with state := .empty, count := some 0 } ∧ raised (.bridgeState .empty (some 0))
        ∧ (b.count = some 0 → noMismatch) ∧ (b.count ≠ some 0 → raised (.sensorMismatch b.count)))
      ∧ (¬ unseen → ¬ emptied → (b.state = .start → x.stable = false) → t.bridge = b ∧ t.links.lane = s.dev.links.lane)
      ∧ (unseen → t.axle = { s.dev.axle with pass := none })
      ∧ (¬ unseen → (∀ p, s.dev.axle.pass = some p → p.state ≠ .opened) → t.axle = s.dev.axle)
      ∧ (¬ unseen → ∀ p : Pass, s.dev.axle.pass = some p → p.state = .opened →
        t.axle = { s.dev.axle with
          pass := some { p with
            samples := min (p.samples + 1) 65535, gap := min (p.gap + 1) 1000,
            marks := { p.marks with cellFault := p.marks.cellFault || x.invalid.any },
            axles := p.axles.map fun a => { a with window := a.window.map fun w =>
              if w.state = .running ∧ w.progress < 50 then
                if 20 ≤ w.progress then
                  { w with progress := w.progress + 1, sum := w.sum + x.gross, count := w.count + 1 }
                else { w with progress := w.progress + 1 }
              else w } } })
      ∧ t.yard = s.dev.yard ∧ t.tickets = s.dev.tickets ∧ (s.dev.metro.findings = [] → t.store = s.dev.store)

/-- BRIDGE_SAMPLE for the metrology unit: a waiting audit point is captured at a VALID, stable sample within range, judged and
answered, and waits on otherwise; a zero capture takes the raw counts of the required positions, or ends NOT_EMPTY, CELL_FAULT or
OVER_RANGE; the finding at the head of the integrity list is written with its INTEGRITY_EVENT and the counters block, with the
counters block alone where the trail is full, and waits where the store is busy (sections 9.4, 10.1, 10.4 and 10.6). The order of the
zero capture's endings within one sample, and that the counters block goes alone where no sequence number is left, are the model's
choices (log entries 52 and 73). -/
def Obligations.BridgeSampleServesMetrology : Prop :=
  ∀ s : State, s.dev.takesEvents →
    (∀ (u : Session) (w : WaitingPoint) (c g : Byte), s.dev.metro.session = some u → u.waiting = some w →
      s.dev.metro.zeroCapture = none → s.dev.links.service.handedOff = some (c, g) →
      ∃ t : Dev, exec .bridgeSample s = s.goesTo t ∧
        let x := t.weighing.last
        let met : Prop := x.invalid.any = false ∧ x.range = .within ∧ x.stable = true
        let e : Int := u.e.kg
        let i := x.expanded.getD 0
        let l : Int := 10 * w.reference
        let mpe := (if l ≤ 5000 * e then 5 * e else if l ≤ 20000 * e then 10 * e else 15 * e) * (if u.inService then 2 else 1)
        (met → t.metro.session = some { u with
              points := u.points ++ [⟨w.kind, w.deck, w.reference, i, i - l, mpe, decide ((i - l).natAbs ≤ mpe), s.dev.clock.count⟩],
              waiting := none }
          ∧ t.links.service.handedOff = none
          ∧ t.answered s.dev .service
              [⟨c, g, .ok, .point (u.points.length + 1) i (i - l) (roundDiv (i - l) u.e.kg) mpe (decide ((i - l).natAbs ≤ mpe))⟩])
        ∧ (¬ met → t.metro.session = some { u with waiting := some { w with waitCount := w.waitCount + 1 } }
          ∧ t.links.service.handedOff = some (c, g) ∧ t.answered s.dev .service []))
    ∧ (∀ (z : ZeroCapture) (w : ParamSet) (tag : Byte), s.dev.metro.zeroCapture = some z → z.count < 100 →
      s.dev.metro.working = some w → s.dev.metro.session = none → s.dev.links.service.slot = some ⟨0x64#8, tag, false⟩ →
      ∃ t : Dev, exec .bridgeSample s = s.goesTo t ∧
        let faulty := ∃ i ∈ w.requiredList, (w.at i).map = none
          ∨ ∃ p, (w.at i).map = some p ∧ ((t.port p).state = .fault ∨ (t.port p).latest = none)
        let ended := fun (status : Status) => t.metro.zeroCapture = none ∧ t.links.service.slot = none
          ∧ t.answered s.dev .service [⟨0x64#8, tag, status, .none⟩]
        (t.bridge.state ≠ .empty → ended .notEmpty)
        ∧ (t.bridge.state = .empty → faulty → ended .cellFault)
        ∧ (t.bridge.state = .empty → ¬ faulty → t.weighing.last.saturated = true → ended .overRange)
        ∧ (t.bridge.state = .empty → ¬ faulty → t.weighing.last.saturated = false →
          t.links.service.slot = s.dev.links.service.slot ∧ t.answered s.dev .service []
          ∧ ∃ z', t.metro.zeroCapture = some z' ∧ z'.count = z.count + 1
            ∧ ∀ i : Fin 16, z'.sums[i] = z.sums[i] + (if w.required i then
                (((w.at i).map.bind fun p => (t.port p).latest).map (·.count)).getD 0 else 0)))
    ∧ ∀ (f : Finding) (rest : List Finding), s.dev.metro.findings = f :: rest → s.dev.bridge.state ≠ .waiting →
      let m := s.dev.metro
      let q := m.lastSeq + 1
      ∃ t : Dev, exec .bridgeSample s = s.goesTo t
        ∧ t.metro.status = m.status ∧ t.metro.boundary = m.boundary ∧ t.metro.generation = m.generation
        ∧ (s.dev.trailHasRoom 1 → s.dev.hasRoom 2 →
          t.metro.findings = rest ∧ t.metro.lastSeq = q ∧ t.metro.statusSeq = q
          ∧ t.store = (s.dev.admitted
              [trailSpec ⟨q, if s.dev.clock.valid then some s.dev.clock.count else none, m.generation,
                .integrityEvent f.reason f.source f.sequence⟩, countersSpec m.generation m.status q] .nothing).store
          ∧ (m.lastSeq - m.boundary < 480 → 480 ≤ q - m.boundary →
            ∃ c ∈ t.links.service.causes, c.cause = .trailNearFull (q - m.boundary) (512 - (q - m.boundary))))
        ∧ (¬ s.dev.trailHasRoom 1 → s.dev.hasRoom 1 →
          t.metro.findings = rest ∧ t.metro.lastSeq = m.lastSeq ∧ t.metro.statusSeq = m.statusSeq
          ∧ t.store = (s.dev.admitted [countersSpec m.generation m.status m.statusSeq] .nothing).store)
        ∧ ((s.dev.trailHasRoom 1 ∧ ¬ s.dev.hasRoom 2) ∨ (¬ s.dev.trailHasRoom 1 ∧ ¬ s.dev.hasRoom 1) →
          t.metro.findings = f :: rest ∧ t.metro.lastSeq = m.lastSeq ∧ t.metro.statusSeq = m.statusSeq ∧ t.store = s.dev.store)

/-- BRIDGE_SAMPLE while a WEIGH is in WAITING: where a condition of section 2.4 fails, the wait count is raised and nothing is
recorded; where all hold, the capture record is taken in RECORDING and applied to the register and the tickets as they stand
(VisitCapturesFollowRules and OtherCapturesFollowRules say how), and the bridge is RECORDING with it, or the request has ended
with no number given (sections 2.4 and 5.5). That the capture is applied before the sample's work in the axle unit and the metrology
unit is the model's reading (log entry 14). -/
def Obligations.WaitingSampleCapturesOrWaits : Prop :=
  ∀ (s : State) (r : Request), s.dev.phase = .startWrites ∨ s.dev.phase = .running → s.dev.bridge.state = .waiting →
    s.dev.bridge.request = some r →
    ∃ t : Dev, exec .bridgeSample s = s.goesTo t ∧
      let x := t.weighing.last
      let met := x.invalid.any = false ∧ x.range = .within ∧ 200 * (s.dev.inForce.e.kg : Int) ≤ x.filtered
        ∧ s.dev.bridge.entryBeam.blocked = false ∧ s.dev.bridge.exitBeam.blocked = false ∧ x.stable = true
      let c : Capture :=
        { identity := r.identity, purpose := r.purpose, binding := r.binding, weight := x.indicated.getD 0,
          e := s.dev.inForce.e, generation := s.dev.metro.generation, status := s.dev.metro.status,
          time := s.dev.clock.count, pass := s.dev.axle.pass.map (·.openedAt) }
      (¬ met → t.bridge.state = .waiting ∧ t.bridge.request = some { r with waitCount := r.waitCount + 1 }
        ∧ t.tickets = s.dev.tickets ∧ t.yard = s.dev.yard)
      ∧ (met →
        ((t.bridge.state = .recording ∧ t.bridge.request = some { r with capture := some c })
          ∨ (t.bridge.state ≠ .waiting ∧ t.bridge.request = none ∧ t.tickets = s.dev.tickets))
        ∧ ∃ d : Dev, t.yard = (d.applyCapture c).yard ∧ t.tickets = (d.applyCapture c).tickets
          ∧ t.bridge = (d.applyCapture c).bridge
          ∧ (s.dev.metro.findings = [] → t.store = (d.applyCapture c).store)
          ∧ d.phase = s.dev.phase ∧ d.yard = s.dev.yard ∧ d.tickets = s.dev.tickets ∧ d.metro = s.dev.metro
          ∧ d.store = s.dev.store ∧ d.nv = s.dev.nv ∧ d.clock = s.dev.clock ∧ d.axle = s.dev.axle ∧ d.weighing.last = x
          ∧ d.bridge = { s.dev.bridge with
              state := .recording, request := some { r with capture := some c },
              entryBeam := { s.dev.bridge.entryBeam with atSample := s.dev.bridge.entryBeam.blocked },
              exitBeam := { s.dev.bridge.exitBeam with atSample := s.dev.bridge.exitBeam.blocked } })

/-- AFTER_WINDOW_COMPLETE completes the windows with their fifty samples; PASS_GAP_TIMEOUT closes an OPEN pass NORMAL and takes
ENTERING to STANDING. A CHECKED pass's last axle of each run takes the step of its M over the M before the run less the shares of
the axles without M, which take the step divided by the length of the run; each load is reported to the e at close, and their sum is
the mean of the last window less the baseline mean; with no axle on its list its sum is 0 and its summary has no groups. Its summary
takes the pass's marks, the settings and the generation as they stand; its groups cut the axle list, two neighbours sharing one
where the spacing of the first axle with a speed behind the front one is within the limit and it follows at once or behind speedless
axles alone. That an UNCHECKED pass closed NORMAL has no e at close, and that the e at close is that of the set in force as it
stands at the close, are the model's choices (log entries 61 and 71) (sections 3.5 to 3.7, 4.1 to 4.4). -/
def Obligations.PassWindowsAndCloseFollowRules : Prop :=
  ∀ (s : State) (p : Pass), s.dev.phase = .startWrites ∨ s.dev.phase = .running → s.dev.axle.pass = some p →
    p.state = .opened →
    exec .afterWindowComplete s = s.goesTo { s.dev with axle := { s.dev.axle with
      pass := some { p with axles := p.axles.map fun a => { a with window := a.window.map fun w =>
        if w.state = .running ∧ 50 ≤ w.progress then
          { w with state := .complete, mean := some (roundDiv w.sum w.count) }
        else w } } } }
    ∧ (∀ (a : AxleRecord) (w : Window) (m m0 : Int), p.kind = .checked → p.m0 = some m0 → p.axles.getLast? = some a →
      a.window = some w → w.state = .complete → w.mean = some m → 100 * s.dev.metro.site.gapTimeout ≤ p.gap →
      ∃ (t : Dev) (q : Pass), exec .passGapTimeout s = s.goesTo t ∧ t.axle.pass = some q
        ∧ q.state = .closed ∧ q.reason = some .normal ∧ q.eAtClose = some s.dev.inForce.e
        ∧ q.axles.length = p.axles.length ∧ (∀ b ∈ q.axles, b.load.isSome = true)
        ∧ q.loadSum = some (m - m0) ∧ q.summary.isSome = true
        ∧ t.bridge.state = (if s.dev.bridge.state = .entering then .standing else s.dev.bridge.state)
        ∧ (∃ c ∈ t.links.lane.causes, c.cause = .passClosed p.openedAt .checked .normal p.axles.length p.marks)
        ∧ t = { s.dev with axle := t.axle, bridge := t.bridge, links := t.links }
        ∧ ((∀ b ∈ p.axles, ∀ v, b.window = some v → v.state ≠ .running) →
          ∀ (before run after : List AxleRecord) (last : AxleRecord) (mean prev : Int),
            let mOf := fun (b : AxleRecord) => b.window.bind (·.mean)
            p.axles = before ++ run ++ last :: after →
            (before = [] ∧ prev = m0 ∨ ∃ b, before.getLast? = some b ∧ mOf b = some prev) →
            (∀ b ∈ run, mOf b = none) → mOf last = some mean →
            let share := (mean - prev).tdiv (run.length + 1)
            let given := fun (i : Nat) (b : AxleRecord) (load : Int) => q.axles[i]? = some
              { b with load := some load, reported := some (roundTo load (10 * s.dev.inForce.e.kg)),
                       merged := b.merged || decide (run ≠ []) }
            (∀ (i : Nat) (b : AxleRecord), run[i]? = some b → given (before.length + i) b share)
            ∧ given (before.length + run.length) last (mean - prev - share * run.length))
        ∧ ∃ g : AxleSummary, q.summary = some g
          ∧ g.openedAt = p.openedAt ∧ g.generation = s.dev.metro.generation ∧ g.e = s.dev.inForce.e ∧ g.marks = p.marks
          ∧ g.band = s.dev.metro.site.minorBand ∧ g.limits = s.dev.metro.site.limits
          ∧ g.grossLimit = (if 2 ≤ p.axles.length then (s.dev.metro.site.grossLimits[p.axles.length - 2]?).getD 0 else 0)
          ∧ g.indicative = ⟨p.marks.overspeed, p.marks.cellFault, false, false⟩
          ∧ (∀ x ∈ g.groups, 1 ≤ x.count) ∧ (g.groups.map (·.count)).sum = p.axles.length
          ∧ (∀ (before after : List AxleGroup) (x : AxleGroup), g.groups = before ++ x :: after →
            x.load = sumInt (((q.axles.drop (before.map (·.count)).sum).take x.count).map fun b => b.load.getD 0))
          ∧ ∀ (front back : List AxleRecord) (b : AxleRecord), p.axles = front ++ b :: back → back ≠ [] →
            let shares : Prop := ∃ (run after : List AxleRecord) (next : AxleRecord) (d : Int),
              back = run ++ next :: after ∧ (∀ r ∈ run, r.speed = none) ∧ next.speed ≠ none ∧ next.spacing = some d
                ∧ d ≤ s.dev.metro.site.groupSpacing ∧ (b.speed ≠ none → run = [])
            (shares ↔ ¬ ∃ i, ((g.groups.take i).map (·.count)).sum = front.length + 1))
    ∧ (p.kind = .checked → p.axles = [] → 100 * s.dev.metro.site.gapTimeout ≤ p.gap →
      let g : AxleSummary :=
        { openedAt := p.openedAt, generation := s.dev.metro.generation, e := s.dev.inForce.e, groups := [],
          band := s.dev.metro.site.minorBand, limits := s.dev.metro.site.limits, grossLimit := 0, marks := p.marks,
          indicative := ⟨p.marks.overspeed, p.marks.cellFault, false, false⟩ }
      g.axles = 0 ∧ g.reportedSum = 0 ∧ g.grossVerdict = .unchecked ∧ g.worst = .unchecked
      ∧ ∃ t : Dev, exec .passGapTimeout s = s.goesTo t
        ∧ t.axle = { s.dev.axle with pass := some { p with
            state := .closed, reason := some .normal, eAtClose := some s.dev.inForce.e, loadSum := some 0, summary := some g } }
        ∧ t.bridge = { s.dev.bridge with
            state := if s.dev.bridge.state = .entering then .standing else s.dev.bridge.state }
        ∧ (∃ c ∈ t.links.lane.causes, c.cause = .passClosed p.openedAt .checked .normal 0 p.marks)
        ∧ t = { s.dev with axle := t.axle, bridge := t.bridge, links := t.links })
    ∧ (p.kind = .unchecked → 100 * s.dev.metro.site.gapTimeout ≤ p.gap →
      (∀ a ∈ p.axles, a.window = none) →
      ∃ t : Dev, exec .passGapTimeout s = s.goesTo t
        ∧ t.axle = { s.dev.axle with pass := some { p with state := .closed, reason := some .normal } }
        ∧ t.bridge = { s.dev.bridge with
            state := if s.dev.bridge.state = .entering then .standing else s.dev.bridge.state }
        ∧ (∃ c ∈ t.links.lane.causes, c.cause = .passClosed p.openedAt .unchecked .normal p.axles.length p.marks)
        ∧ t = { s.dev with axle := t.axle, bridge := t.bridge, links := t.links })

/-- ZERO and ZERO_TRACKING: Z_op moves by the filtered gross, within the zero limit; the histories and the last filtered gross are
rebased and the tracking count is 0; ZERO is refused by the first check of its table that applies (section 2.3). That ZERO_TRACKING
moves Z_op whatever the bridge state has become since the sample that raised the count is the model's choice (log entry 84). -/
def Obligations.ZeroCommandsMoveZero : Prop :=
  (∀ (s : State) (tag : Byte), s.dev.ready .console → s.dev.metro.working = none → s.dev.metro.session = none →
    s.dev.bridge.state = .empty → s.dev.weighing.last.invalid.any = false → s.dev.weighing.last.range ≠ .over →
    s.dev.weighing.last.stable = true →
    let f := s.dev.weighing.last.filtered
    let z := s.dev.weighing.zOp + f
    (z.natAbs : Int) ≤ s.dev.metro.current.zeroLimit →
    ∃ t : Dev, exec (.zero tag) s = s.goesTo t ∧ t.weighing.zOp = z ∧ t.weighing.last.filtered = 0
      ∧ t.weighing.tracking = 0 ∧ t.weighing.filterHist = s.dev.weighing.filterHist.map (· - f)
      ∧ t.weighing.stabHist = s.dev.weighing.stabHist.map (· - f)
      ∧ t.weighing.baseline = s.dev.weighing.baseline.map (· - f)
      ∧ t = { (s.dev.respond .console 0x09#8 tag .ok (.zOp z)) with weighing := t.weighing, axle := t.axle }
      ∧ t.axle.queue = s.dev.axle.queue ∧ t.axle.ms = s.dev.axle.ms)
  ∧ (∀ s : State, s.dev.phase = .startWrites ∨ s.dev.phase = .running → s.dev.weighing.tracking = 100 →
    s.dev.metro.working = none → s.dev.metro.session = none →
    let limit := s.dev.metro.current.zeroLimit
    let z := max (-limit) (min limit (s.dev.weighing.zOp + s.dev.weighing.last.filtered))
    let shift := z - s.dev.weighing.zOp
    ∃ t : Dev, exec .zeroTracking s = s.goesTo t ∧ t.weighing.zOp = z ∧ t.weighing.tracking = 0
      ∧ t.weighing.last.filtered = s.dev.weighing.last.filtered - shift
      ∧ t.weighing.filterHist = s.dev.weighing.filterHist.map (· - shift)
      ∧ t.weighing.stabHist = s.dev.weighing.stabHist.map (· - shift)
      ∧ t.weighing.baseline = s.dev.weighing.baseline.map (· - shift)
      ∧ t = { s.dev with weighing := t.weighing, axle := t.axle })
  ∧ ∀ (s : State) (tag : Byte), s.dev.ready .console →
    let x := s.dev.weighing.last
    let refused := fun (status : Status) => exec (.zero tag) s = s.goesTo (s.dev.respond .console 0x09#8 tag status .none)
    if s.dev.metro.working ≠ none then refused .calMode
    else if s.dev.metro.session ≠ none then refused .audit
    else if s.dev.bridge.state ≠ .empty then refused .notEmpty
    else if x.invalid.any = true then refused .cellFault
    else if x.range = .over then refused .overRange
    else if x.stable = false then refused .unstable
    else s.dev.metro.current.zeroLimit < ((s.dev.weighing.zOp + x.filtered).natAbs : Int) → refused .zeroRange

/-- WEIGH_WAIT_EXPIRY and AUDIT_POINT_EXPIRY: the wait ends, the response carries the first condition unmet at the last sample,
and nothing is recorded (sections 2.4 and 10.1). -/
def Obligations.WaitsExpireWithFirstUnmet : Prop :=
  (∀ (s : State) (r : Request) (limit : Nat) (c g : Byte), s.dev.phase = .startWrites ∨ s.dev.phase = .running →
    s.dev.bridge.state = .waiting → s.dev.bridge.request = some r → r.waitLimit = some limit → limit ≤ r.waitCount →
    s.dev.links.lane.handedOff = some (c, g) →
    let x := s.dev.weighing.last
    let status : Status :=
      if x.invalid.any then .cellFault
      else if x.range = .over then .overRange
      else if x.range = .under then .underRange
      else if x.filtered < 200 * (s.dev.inForce.e.kg : Int) then .belowMin
      else if s.dev.bridge.entryBeam.atSample || s.dev.bridge.exitBeam.atSample then .position
      else .unstable
    exec .weighWaitExpiry s = s.goesTo
      ((({ s.dev with bridge := { s.dev.bridge with request := none, state := .standing } } : Dev).onLink .lane fun k =>
        ({ k with handedOff := none } : LinkState).send ⟨c, g, status, .none⟩).raise .lane
          (.bridgeState .standing s.dev.bridge.count)))
  ∧ ∀ (s : State) (u : Session) (w : WaitingPoint) (limit : Nat) (c g : Byte),
    s.dev.phase = .startWrites ∨ s.dev.phase = .running → s.dev.metro.session = some u → u.waiting = some w →
    w.waitLimit = some limit → limit ≤ w.waitCount → s.dev.links.service.handedOff = some (c, g) →
    let x := s.dev.weighing.last
    let status : Status :=
      if x.invalid.any then .cellFault
      else if x.range = .over then .overRange
      else if x.range = .under then .underRange
      else .unstable
    exec .auditPointExpiry s = s.goesTo
      (({ s.dev with metro := { s.dev.metro with session := some { u with waiting := none } } } : Dev).onLink .service fun k =>
        ({ k with handedOff := none } : LinkState).send ⟨c, g, status, .none⟩)

/-- CAL ZERO begins a zero capture on a stable EMPTY bridge where the last bridge sample took every required position, and leaves
the slot EXECUTING; where that sample found a position sent to ABSENT, in FAULT or without a value it is answered CELL_FAULT with
those positions. It is refused by the first check of its table that applies. CAL_ZERO_COMPLETE sets each required offset to the mean
of its hundred raw values, Z_op to 0, and answers with the offsets (section 9.4). -/
def Obligations.ZeroCaptureBeginsAndCompletes : Prop :=
  (∀ (s : State) (tag : Byte), s.dev.ready .service →
    let refused := fun (status : Status) (body : Body) =>
      exec (.calZero tag) s = s.goesTo (s.dev.respond .service 0x64#8 tag status body)
    (s.dev.metro.working = none → refused .notCalMode .none)
    ∧ ∀ w : ParamSet, s.dev.metro.working = some w →
      (s.dev.bridge.state ≠ .empty → refused .notEmpty .none)
      ∧ (s.dev.bridge.state = .empty →
        s.dev.weighing.last.cellValues.map (fun v => (v.pos, v.port)) = w.requiredList.map (fun i => (i, (w.at i).map)) →
        let faulty := (s.dev.weighing.last.cellValues.filter (·.faulty)).map (·.pos)
        if faulty ≠ [] then refused .cellFault (.positions faulty)
        else if s.dev.weighing.last.saturated = true then refused .overRange .none
        else if s.dev.weighing.last.stable = false then refused .unstable .none
        else exec (.calZero tag) s = s.goesTo { (s.dev.executing .service 0x64#8 tag) with
          metro := { s.dev.metro with zeroCapture := some ⟨0, Vector.replicate 16 0⟩ } }))
  ∧ ∀ (s : State) (tag : Byte) (w : ParamSet) (z : ZeroCapture),
    s.dev.phase = .startWrites ∨ s.dev.phase = .running → s.dev.metro.working = some w →
    s.dev.metro.zeroCapture = some z → z.count = 100 → s.dev.links.service.slot = some ⟨0x64#8, tag, false⟩ →
    let offsets := w.requiredList.map fun i => (i, roundDiv (z.sums[i]?.getD 0) 100)
    ∃ (t : Dev) (w' : ParamSet), exec .calZeroComplete s = s.goesTo t ∧ t.metro.working = some w'
      ∧ (∀ i < 16, w'.at i = if w.required i then { w.at i with offset := some (roundDiv (z.sums[i]?.getD 0) 100) }
          else w.at i)
      ∧ { w' with pos := w.pos } = w ∧ t.metro.zeroCapture = none ∧ t.metro.current = s.dev.metro.current
      ∧ t.weighing.zOp = 0 ∧ t.weighing.emptyDue = true ∧ t.links.service.slot = none
      ∧ t.answered s.dev .service [⟨0x64#8, tag, .ok, .offsets offsets⟩]
      ∧ t = { s.dev with metro := t.metro, weighing := t.weighing, axle := t.axle, cells := t.cells, links := t.links }

/-- DETECTION and PAIRING_TIMEOUT complete in every state, bring the millisecond counter on, and change the axle unit, the bridge
monitor, a zero capture (ended MOVED), a waiting audit point and the links alone. DETECTION at sensor A in EMPTY opens a CHECKED
pass with the baseline's mean, in LEAVING an UNCHECKED FOLLOW_ON pass, and waits in the queue, as it does, with a B, elsewhere; at
sensor X in EMPTY it opens an UNCHECKED pass, raises WRONG_WAY and forms its crossing at once; at a full queue it is lost and aborts
an OPEN pass. A queue is resolved from its head: an X forms its crossing, an A pairs with the oldest later B, a B with the oldest
later A of the 3,000 ms after it, and a head without its partner waits. In ENTERING, where every OPEN pass stands, a detection at
sensor B completes a waiting A's pair: a FORWARD crossing with its speed, an axle added with its spacing and a fresh window, the
window before cut where it runs, the count raised; a pair of zero interval is a crossing without speed and marks the pass; an axle
beyond 24 aborts the pass TOO_MANY_AXLES; at sensor A it completes a waiting B's BACKWARD crossing: the last axle removed, the
window it had cut begun afresh, the count lowered. An UNCHECKED pass, FOLLOW_ON or entered at X, keeps each axle's crossing sample
and times alone. PAIRING_TIMEOUT discards a B at the head, the queue resolved again, and makes an A a FORWARD crossing without
speed, marking an OPEN pass (sections 2.1, 3.1 to 3.5, 3.7 and 9.4). The reading that DETECTION carries, its clamp, the reading at
PAIRING_TIMEOUT, and that a detection lost at a full queue ends a zero capture too, are the model's choices (log entries 8 and 59);
that a pair of zero interval leaves no B time, that the crossing beyond 24 is classed with no pass OPEN, and that a window with its
fifty samples is completed, not cut, are its readings (log entries 16, 17 and 34). -/
def Obligations.DetectionsFollowRules : Prop :=
  (∀ (s : State) (c : Instr), s.dev.takesEvents → (c = .pairingTimeout ∨ ∃ x n, c = .detection x n) →
    ∃ t : Dev, exec c s = s.goesTo t
      ∧ t.axle.ms = (match c, s.dev.axle.queue with
        | .detection _ n, _ => min (max s.dev.axle.ms n) 281474976710655
        | _, h :: _ => min (max s.dev.axle.ms (h.time + 3000)) 281474976710655
        | _, [] => s.dev.axle.ms)
      ∧ t = { s.dev with
          axle := t.axle, bridge := t.bridge, links := t.links,
          metro := { s.dev.metro with zeroCapture := t.metro.zeroCapture, session := t.metro.session } })
  ∧ (∀ (s : State) (x : Sensor) (n : Nat) (z : ZeroCapture) (tag : Byte), s.dev.takesEvents →
    s.dev.metro.zeroCapture = some z → z.count < 100 → s.dev.links.service.slot = some ⟨0x64#8, tag, false⟩ →
    let ended := ({ s.dev with metro := { s.dev.metro with zeroCapture := none } } : Dev).onLink .service fun k =>
      ({ k with slot := none } : LinkState).send ⟨0x64#8, tag, .moved, .none⟩
    exec (.detection x n) s = exec (.detection x n) { s with dev := ended })
  ∧ (∀ (s : State) (n : Nat), s.dev.phase = .startWrites ∨ s.dev.phase = .running → s.dev.metro.zeroCapture = none →
    s.dev.axle.queue = [] →
    let time := min (max s.dev.axle.ms n) 281474976710655
    (s.dev.bridge.state = .empty →
      exec (.detection .A n) s = s.goesTo
        (({ s.dev with
            axle :=
              { ms := time, queue := [⟨.A, time⟩],
                pass := some
                  { openedAt := time, state := .opened, kind := .checked, entryEnd := .pair,
                    marks := ⟨false, false, false, false, false, s.dev.metro.working.isSome⟩,
                    m0 := some (meanInt s.dev.weighing.baseline), axles := [], gap := 0, samples := 0, reason := none,
                    eAtClose := none, loadSum := none, summary := none } },
            bridge := { s.dev.bridge with state := .entering, entryEnd := .pair } } : Dev).raise .lane
          (.bridgeState .entering s.dev.bridge.count)))
    ∧ (s.dev.bridge.state = .leaving →
      exec (.detection .A n) s = s.goesTo
        (({ s.dev with
            axle :=
              { ms := time, queue := [⟨.A, time⟩],
                pass := some
                  { openedAt := time, state := .opened, kind := .unchecked, entryEnd := .pair,
                    marks := ⟨true, false, false, false, false, s.dev.metro.working.isSome⟩,
                    m0 := none, axles := [], gap := 0, samples := 0, reason := none,
                    eAtClose := none, loadSum := none, summary := none } },
            bridge := { s.dev.bridge with state := .entering, entryEnd := .pair } } : Dev).raise .lane
          (.bridgeState .entering s.dev.bridge.count)))
    ∧ (s.dev.bridge.state ≠ .empty → s.dev.bridge.state ≠ .leaving →
      exec (.detection .A n) s = s.goesTo { s.dev with axle := { s.dev.axle with ms := time, queue := [⟨.A, time⟩] } })
    ∧ exec (.detection .B n) s = s.goesTo { s.dev with axle := { s.dev.axle with ms := time, queue := [⟨.B, time⟩] } })
  ∧ (∀ (s : State) (n : Nat) (k : Int), s.dev.phase = .startWrites ∨ s.dev.phase = .running →
    s.dev.metro.zeroCapture = none → s.dev.metro.session = none → s.dev.axle.queue = [] → s.dev.bridge.state = .empty →
    s.dev.bridge.count = some k → -255 ≤ k → k < 255 →
    let time := min (max s.dev.axle.ms n) 281474976710655
    ∃ (t : Dev) (p : Pass) (a : AxleRecord), exec (.detection .X n) s = s.goesTo t ∧ t.axle.queue = []
      ∧ t.axle.ms = time ∧ t.axle.pass = some p ∧ p.state = .opened ∧ p.kind = .unchecked ∧ p.entryEnd = .x
      ∧ p.openedAt = time ∧ p.axles = [a] ∧ a.xTime = some time ∧ a.crossingSample = 1 ∧ a.window = none
      ∧ t.bridge = { s.dev.bridge with state := .entering, entryEnd := .x, count := some (k + 1) }
      ∧ (∃ c ∈ t.links.lane.causes, c.cause = .wrongWay) ∧ t = { s.dev with axle := t.axle, bridge := t.bridge, links := t.links })
  ∧ (∀ (s : State) (x : Sensor) (n : Nat), s.dev.phase = .startWrites ∨ s.dev.phase = .running →
    s.dev.metro.zeroCapture = none → 8 ≤ s.dev.axle.queue.length →
    (∀ p : Pass, s.dev.axle.pass = some p → p.state = .opened →
      ∃ t : Dev, exec (.detection x n) s = s.goesTo t ∧ t.axle.queue = s.dev.axle.queue
        ∧ t.axle.pass = some { p with state := .aborted, reason := some .detectionOverrun }
        ∧ t.bridge = { s.dev.bridge with
            state := if s.dev.bridge.state = .entering then .standing else s.dev.bridge.state }
        ∧ (∃ c ∈ t.links.lane.causes, c.cause = .passClosed p.openedAt p.kind .detectionOverrun p.axles.length p.marks)
        ∧ t = { s.dev with axle := t.axle, bridge := t.bridge, links := t.links })
    ∧ ((∀ p : Pass, s.dev.axle.pass = some p → p.state ≠ .opened) →
      exec (.detection x n) s = s.goesTo { s.dev with axle :=
        { s.dev.axle with ms := min (max s.dev.axle.ms n) 281474976710655 } }))
  ∧ (∀ (s : State) (p : Pass) (n m : Nat) (k : Int), s.dev.phase = .startWrites ∨ s.dev.phase = .running →
    s.dev.metro.zeroCapture = none → s.dev.metro.session = none → s.dev.bridge.state = .entering →
    s.dev.bridge.entryEnd = .pair → s.dev.bridge.count = some k → -255 < k → k < 255 → s.dev.axle.pass = some p →
    p.state = .opened → p.kind = .checked → p.entryEnd = .pair →
    let time := min (max s.dev.axle.ms m) 281474976710655
    let late := min (max s.dev.axle.ms (n + 3000)) 281474976710655
    let limit := (roundDiv ((s.dev.metro.site.speedLimit * 10000 : Nat) : Int) 36).toNat
    let v := (roundDiv ((1000 * s.dev.metro.site.sensorSpacing : Nat) : Int) (time - n)).toNat
    -- the axle list with the window of its last axle cut, where it runs; one that is COMPLETE or CUT already stands
    let cutWindow := fun (w : Window) =>
      if w.state ≠ .running then w
      else if 50 ≤ w.progress then { w with state := .complete, mean := some (roundDiv w.sum w.count) }
      else { w with state := .cut, mean := if 8 ≤ w.count then some (roundDiv w.sum w.count) else none }
    let cut := fun (axles before : List AxleRecord) => axles.length < 24 ∧ (axles = [] ∧ before = []
      ∨ ∃ (others : List AxleRecord) (a : AxleRecord), axles = others ++ [a]
        ∧ before = others ++ [{ a with window := a.window.map cutWindow }])
    -- an axle of a crossing without speed
    let slow : AxleRecord :=
      { crossingSample := min (p.samples + 1) 65535, aTime := some n, bTime := none, xTime := none, speed := none,
        spacing := none, window := some ⟨0, 0, 0, .running, none⟩, load := none, reported := none, merged := false,
        overspeed := false }
    ∀ q : List Detection, q.length < 7 →
    (s.dev.axle.queue = ⟨.A, n⟩ :: q → (∀ x ∈ q, x.sensor = .A) → n < time →
      let axle (spacing : Option Int) : AxleRecord :=
        { crossingSample := min (p.samples + 1) 65535, aTime := some n, bTime := some time, xTime := none, speed := some v,
          spacing := spacing, window := some ⟨0, 0, 0, .running, none⟩, load := none, reported := none, merged := false,
          overspeed := decide (limit < v) }
      (∀ before : List AxleRecord, cut p.axles before →
        ∀ spacing : Option Int, (p.axles = [] → spacing = none) →
        (∀ a : AxleRecord, p.axles.getLast? = some a →
          (∀ b, a.bTime = some b → spacing = some (roundDiv ((v : Int) * ((time : Int) - b)) 1000))
          ∧ (∀ b, a.bTime = none → a.aTime = some b → spacing = some (roundDiv ((v : Int) * ((n : Int) - b)) 1000))
          ∧ (a.bTime = none → a.aTime = none → spacing = none)) →
        exec (.detection .B m) s = s.goesTo { s.dev with
          axle := { ms := time, queue := q,
                    pass := some { p with gap := 0, axles := before ++ [axle spacing],
                                          marks := { p.marks with overspeed := p.marks.overspeed || decide (limit < v) } } },
          bridge := { s.dev.bridge with count := some (k + 1) } })
      ∧ (24 ≤ p.axles.length →
        ∃ t : Dev, exec (.detection .B m) s = s.goesTo t
          ∧ t.axle = { ms := time, queue := q,
                       pass := some { p with gap := 0, state := .aborted, reason := some .tooManyAxles } }
          ∧ t.bridge = { s.dev.bridge with state := .standing, count := some (k + 1) }
          ∧ (∃ c ∈ t.links.lane.causes, c.cause = .passClosed p.openedAt .checked .tooManyAxles p.axles.length p.marks)
          ∧ t = { s.dev with axle := t.axle, bridge := t.bridge, links := t.links }))
    -- a pair of zero interval, and an A whose pairing timeout has come
    ∧ (s.dev.axle.queue = ⟨.A, n⟩ :: q → (∀ x ∈ q, x.sensor = .A) → ∀ before : List AxleRecord, cut p.axles before →
      let goes := fun (c : Instr) (ms : Nat) =>
        exec c s = s.goesTo { s.dev with
          axle := { ms := ms, queue := q, pass := some { p with
            gap := 0, marks := { p.marks with sensorFault := true }, axles := before ++ [slow] } },
          bridge := { s.dev.bridge with count := some (k + 1) } }
      (time = n → goes (.detection .B m) time) ∧ goes .pairingTimeout late)
    ∧ (s.dev.axle.queue = ⟨.B, n⟩ :: q → (∀ x ∈ q, x.sensor = .B) → time ≤ n + 3000 →
      let goes := fun (axles : List AxleRecord) =>
        exec (.detection .A m) s = s.goesTo { s.dev with
          axle := { ms := time, queue := q,
                    pass := some { p with gap := 0, axles := axles, marks := { p.marks with reversed := true } } },
          bridge := { s.dev.bridge with count := some (k - 1) } }
      (p.axles = [] → goes [])
      ∧ (∀ b : AxleRecord, p.axles = [b] → goes [])
      ∧ ∀ (before : List AxleRecord) (a b : AxleRecord) (w : Window), p.axles = before ++ [a, b] → a.window = some w →
        goes (before ++
          [if w.state = .cut then { a with window := some ⟨0, 0, 0, .running, none⟩ } else a])))
  -- an UNCHECKED pass: FOLLOW_ON from the entry pair, or entered at X
  ∧ (∀ (s : State) (p : Pass) (n m : Nat) (k : Int) (q : List Detection), s.dev.takesEvents →
    s.dev.metro.zeroCapture = none → s.dev.metro.session = none → s.dev.bridge.state = .entering →
    s.dev.bridge.count = some k → -255 < k → k < 255 → s.dev.axle.pass = some p → p.state = .opened → p.kind = .unchecked →
    s.dev.bridge.entryEnd = p.entryEnd → (∀ a ∈ p.axles, a.window = none) → q.length < 7 →
    let time := min (max s.dev.axle.ms m) 281474976710655
    let late := min (max s.dev.axle.ms (n + 3000)) 281474976710655
    let bare := fun (a b x : Option Nat) =>
      ({ crossingSample := min (p.samples + 1) 65535, aTime := a, bTime := b, xTime := x, speed := none, spacing := none,
         window := none, load := none, reported := none, merged := false, overspeed := false } : AxleRecord)
    let goes := fun (c : Instr) (ms : Nat) (queue : List Detection) (p' : Pass) (count : Int) =>
      exec c s = s.goesTo { s.dev with axle := ⟨ms, queue, some { p' with gap := 0 }⟩,
                                       bridge := { s.dev.bridge with count := some count } }
    let tooMany := fun (c : Instr) (ms : Nat) (queue : List Detection) (marks : PassMarks) (state : BridgeState) (count : Int) =>
      ∃ t : Dev, exec c s = s.goesTo t
        ∧ t.axle = ⟨ms, queue, some { p with gap := 0, state := .aborted, reason := some .tooManyAxles, marks := marks }⟩
        ∧ t.bridge = { s.dev.bridge with state := state, count := some count }
        ∧ (∃ c ∈ t.links.lane.causes, c.cause = .passClosed p.openedAt .unchecked .tooManyAxles p.axles.length marks)
        ∧ t = { s.dev with axle := t.axle, bridge := t.bridge, links := t.links }
    let faulted := { p.marks with sensorFault := true }
    let added := fun (a : AxleRecord) => { p with axles := p.axles ++ [a] }
    (s.dev.axle.queue = ⟨.A, n⟩ :: q → (∀ x ∈ q, x.sensor = .A) →
      (p.entryEnd = .pair → p.axles.length < 24 →
        (n < time → goes (.detection .B m) time q (added (bare (some n) (some time) none)) (k + 1))
        ∧ (time = n →
          goes (.detection .B m) time q { added (bare (some n) none none) with marks := faulted } (k + 1))
        ∧ goes .pairingTimeout late q { added (bare (some n) none none) with marks := faulted } (k + 1))
      ∧ (p.entryEnd = .pair → 24 ≤ p.axles.length →
        (n < time → tooMany (.detection .B m) time q p.marks .standing (k + 1))
        ∧ tooMany .pairingTimeout late q faulted .standing (k + 1))
      ∧ (p.entryEnd = .x →
        (n < time → goes (.detection .B m) time q p (k + 1))
        ∧ (time = n → goes (.detection .B m) time q { p with marks := faulted } (k + 1))
        ∧ goes .pairingTimeout late q { p with marks := faulted } (k + 1)))
    ∧ (s.dev.axle.queue = ⟨.B, n⟩ :: q → (∀ x ∈ q, x.sensor = .B) → time ≤ n + 3000 → p.entryEnd = .pair →
      goes (.detection .A m) time q
        { p with axles := p.axles.dropLast, marks := { p.marks with reversed := true } } (k - 1))
    ∧ (s.dev.axle.queue = [] → p.entryEnd = .x →
      (p.axles.length < 24 → goes (.detection .X m) time [] (added (bare none none (some time))) (k + 1))
      ∧ (24 ≤ p.axles.length → tooMany (.detection .X m) time [] p.marks .leaving (k - 1))))
  -- the head of the queue resolved, as far as it goes
  ∧ (∀ (s : State) (x : Sensor) (n : Nat), s.dev.takesEvents → s.dev.metro.zeroCapture = none → s.dev.axle.queue.length < 8 →
    (s.dev.bridge.state = .empty → x = .B) → (s.dev.bridge.state = .leaving → x ≠ .A) →
    let time := min (max s.dev.axle.ms n) 281474976710655
    exec (.detection x n) s = s.goesTo (({ s.dev with axle :=
      { s.dev.axle with ms := time, queue := s.dev.axle.queue ++ [⟨x, time⟩] } } : Dev).resolveAll))
  ∧ (∀ (d : Dev) (n : Nat) (t : List Detection),
    (d.axle.queue = [] → d.resolveAll = d)
    ∧ (d.axle.queue = ⟨.X, n⟩ :: t →
      d.resolveAll = ((d.setQueue t).takeCrossing ⟨.exit, none, none, some n, none⟩).resolveAll)
    ∧ (d.axle.queue = ⟨.A, n⟩ :: t →
      ((∀ x ∈ t, x.sensor ≠ .B) → d.resolveAll = d)
      ∧ ∀ (before after : List Detection) (b : Nat), t = before ++ ⟨.B, b⟩ :: after → (∀ x ∈ before, x.sensor ≠ .B) →
        d.resolveAll = ((d.setQueue (before ++ after)).takeForward n b).resolveAll)
    ∧ (d.axle.queue = ⟨.B, n⟩ :: t →
      ((∀ x ∈ t, x.sensor = .A → n + 3000 < x.time) → d.resolveAll = d)
      ∧ ∀ (before after : List Detection) (a : Nat), t = before ++ ⟨.A, a⟩ :: after → a ≤ n + 3000 →
        (∀ x ∈ before, x.sensor = .A → n + 3000 < x.time) →
        d.resolveAll
          = ((d.setQueue (before ++ after)).takeCrossing ⟨.backward, some a, some n, none, none⟩).resolveAll))
  ∧ (∀ (s : State) (n : Nat) (q : List Detection), s.dev.takesEvents → s.dev.axle.queue = ⟨.B, n⟩ :: q →
    let ms := min (max s.dev.axle.ms (n + 3000)) 281474976710655
    let pass := s.dev.axle.pass.map fun p =>
      if p.state = .opened then { p with marks := { p.marks with sensorFault := true } } else p
    exec .pairingTimeout s = s.goesTo ({ s.dev with axle := ⟨ms, q, pass⟩ } : Dev).resolveAll
    ∧ ((∀ x ∈ q, x.sensor = .B) → exec .pairingTimeout s = s.goesTo { s.dev with axle := ⟨ms, q, pass⟩ }))
  ∧ ∀ (s : State) (n : Nat) (k : Int) (q : List Detection), s.dev.takesEvents → s.dev.axle.pass = none →
    s.dev.axle.queue = ⟨.A, n⟩ :: q → (∀ x ∈ q, x.sensor = .A) → s.dev.metro.session = none → s.dev.bridge.state = .standing →
    s.dev.bridge.count = some k → -255 ≤ k → k < 255 →
    exec .pairingTimeout s = s.goesTo
      { s.dev with axle := { s.dev.axle with ms := min (max s.dev.axle.ms (n + 3000)) 281474976710655, queue := q },
                   bridge := { s.dev.bridge with count := some (k + 1) } }

/-- A crossing as the bridge monitor takes it, by its kind and the entry end: in START it changes nothing; in STANDING it moves the
axles-on count, and a leaving crossing the bridge to LEAVING; in WAITING the WEIGH ends MOVED first; in RECORDING a leaving crossing
is kept for the report; in LEAVING the count alone moves. It ends a waiting audit point MOVED. In ENTERING a leaving crossing closes
the pass NORMAL: the loads of a CHECKED pass sum to the M of its last axle less M0, and to 0 with no axle, where a COMPLETE last window
keeps its M, and a running one takes its M however few samples it holds, and with none the last sample's gross as that sample formed
it (log entry 62, a choice where a commit came between), its e at close that of the set in force as it then stands (log entry 71, a
choice where that set has just changed); with FOLLOW_ON the exit of the vehicle ahead moves the count alone (sections 2.1, 2.4, 3.2,
3.4, 3.6, 3.7 and 10.1). -/
def Obligations.CrossingsMoveBridge : Prop :=
  ∀ (s : State) (c : Instr) (kind : CrossingKind), s.dev.takesEvents → s.dev.metro.zeroCapture = none → s.dev.forms c kind →
    let b := s.dev.bridge
    let moved := fun (δ : Int) => b.count.map fun k => max (-255) (min 255 (k + δ))
    let δ : Int := if kind = .forward then 1 else -1
    let leaving : Prop := kind = .exit ∨ (kind = .backward ∧ b.entryEnd = .x)
    (∀ (u : Session) (w : WaitingPoint) (x g : Byte), s.dev.metro.session = some u → u.waiting = some w →
      s.dev.links.service.handedOff = some (x, g) →
      ∃ t : Dev, exec c s = s.goesTo t
        ∧ t.metro = { s.dev.metro with session := some { u with waiting := none } } ∧ t.links.service.handedOff = none
        ∧ t.answered s.dev .service [⟨x, g, .moved, .none⟩])
    ∧ ((∀ u, s.dev.metro.session = some u → u.waiting = none) →
      let goes := fun (b' : Bridge) =>
        ∃ t : Dev, exec c s = s.goesTo t ∧ t.bridge = b' ∧ t.axle = { s.dev.axle with ms := t.axle.ms, queue := [] }
          ∧ (∀ l, l ≠ .lane → t.links.get l = s.dev.links.get l)
          ∧ t = { s.dev with axle := t.axle, bridge := t.bridge, links := t.links }
      ((∀ p, s.dev.axle.pass = some p → p.state ≠ .opened) →
        (b.state = .start → goes b)
        ∧ (b.state = .empty → (∀ n, c ≠ .detection .A n) → (∀ n, c ≠ .detection .X n) → goes b)
        ∧ (b.state = .standing → leaving → goes { b with count := moved δ, state := .leaving })
        ∧ (b.state = .standing → ¬ leaving → goes { b with count := moved δ })
        ∧ (b.state = .leaving → (∀ n, c ≠ .detection .A n) → goes { b with count := moved δ })
        ∧ (b.state = .recording → leaving → goes { b with count := moved δ, leavingSeen := true })
        ∧ (b.state = .recording → ¬ leaving → goes { b with count := moved δ })
        ∧ (b.state = .waiting →
          goes { b with
            request := none, count := moved δ,
            state := if kind = .exit ∨ (kind = .backward ∧ b.entryEnd = .x) then .leaving else .standing }
          ∧ ∀ (x g : Byte) (t : Dev), s.dev.links.lane.handedOff = some (x, g) → exec c s = s.goesTo t →
            t.links.lane.handedOff = none ∧ t.answered s.dev .lane [⟨x, g, .moved, .none⟩]
              ∧ (leaving → ∃ q ∈ t.links.lane.causes, q.cause = .bridgeState .leaving (moved δ))
              ∧ (¬ leaving → ∃ q ∈ t.links.lane.causes, q.cause = .bridgeState .standing b.count)))
      ∧ ∀ p : Pass, s.dev.axle.pass = some p → p.state = .opened → p.entryEnd = b.entryEnd → b.state = .entering →
        (kind = .exit → b.entryEnd = .pair → p.marks.followOn = true →
          ∃ t : Dev, exec c s = s.goesTo t ∧ t.bridge = { b with count := moved (-1) }
            ∧ t.axle = { ms := t.axle.ms, queue := [], pass := some { p with gap := 0 } }
            ∧ t = { s.dev with axle := t.axle, bridge := t.bridge })
        ∧ ((kind = .exit ∧ b.entryEnd = .pair ∧ p.marks.followOn = false) ∨ (kind = .backward ∧ b.entryEnd = .x) →
          ∃ (t : Dev) (q : Pass), exec c s = s.goesTo t ∧ t.bridge = { b with count := moved (-1), state := .leaving }
            ∧ t.axle.queue = [] ∧ t.axle.pass = some q ∧ q.state = .closed ∧ q.reason = some .normal
            ∧ q.axles.length = p.axles.length ∧ q.marks = p.marks
            ∧ (p.kind = .checked → ∀ m0 : Int, p.m0 = some m0 →
              q.eAtClose = some s.dev.inForce.e ∧ q.summary.isSome = true
              ∧ (p.axles = [] → q.loadSum = some 0)
              ∧ ∀ (a : AxleRecord) (w : Window), p.axles.getLast? = some a → a.window = some w →
                let closes := fun (m : Int) => (∀ x ∈ q.axles, x.load.isSome = true) ∧ q.loadSum = some (m - m0)
                (∀ m, w.state = .complete → w.mean = some m → closes m)
                ∧ (w.state = .running → w.progress < 50 → w.count = 0 → closes s.dev.weighing.last.gross)
                ∧ (w.state = .running → w.count ≠ 0 → closes (roundDiv w.sum w.count)))
            ∧ (p.kind = .unchecked → q = { p with state := .closed, reason := some .normal, gap := 0, axles := q.axles }
              ∧ ((∀ a ∈ p.axles, a.window = none) → q.axles = p.axles))
            ∧ (∃ x ∈ t.links.lane.causes, x.cause = .passClosed p.openedAt p.kind .normal p.axles.length p.marks)
            ∧ (∃ x ∈ t.links.lane.causes, x.cause = .bridgeState .leaving (moved (-1)))
            ∧ t = { s.dev with axle := t.axle, bridge := t.bridge, links := t.links }))

/-- END_BEAM_CHANGE records the level with its change mark and raises BEAM_CHANGE; CALIBRATION_SWITCH records its level, and
opening during calibration mode discards the working copy, ends a zero capture SWITCH_OPEN and raises CAL_ABORTED (sections
2.2, 9.1 and 9.6). -/
def Obligations.InputChangesAreTaken : Prop :=
  ∀ s : State, s.dev.phase = .startWrites ∨ s.dev.phase = .running →
    (∀ b : Bool, s.dev.bridge.entryBeam.blocked ≠ b →
      exec (.endBeamChange .entry b) s = s.goesTo
        (({ s.dev with
            pins := { s.dev.pins with entryBlocked := b },
            bridge := { s.dev.bridge with entryBeam := { s.dev.bridge.entryBeam with blocked := b, changed := true } } } : Dev).raise
          .lane (.beamChange .entry b)))
    ∧ (∀ b : Bool, s.dev.bridge.exitBeam.blocked ≠ b →
      exec (.endBeamChange .exit b) s = s.goesTo
        (({ s.dev with
            pins := { s.dev.pins with exitBlocked := b },
            bridge := { s.dev.bridge with exitBeam := { s.dev.bridge.exitBeam with blocked := b, changed := true } } } : Dev).raise
          .lane (.beamChange .exit b)))
    ∧ exec (.calibrationSwitch true) s = s.goesTo
        { s.dev with pins := { s.dev.pins with switchClosed := true },
                     metro := { s.dev.metro with switchClosed := true } }
    ∧ (s.dev.metro.working = none → exec (.calibrationSwitch false) s = s.goesTo
        { s.dev with pins := { s.dev.pins with switchClosed := false },
                     metro := { s.dev.metro with switchClosed := false } })
    ∧ ∀ w : ParamSet, s.dev.metro.switchClosed = true → s.dev.metro.working = some w →
      ∃ t : Dev, exec (.calibrationSwitch false) s = s.goesTo t
        ∧ t.metro = { s.dev.metro with working := none, differs := false, zeroCapture := none, switchClosed := false }
        ∧ t.weighing = { s.dev.weighing with emptyDue := s.dev.weighing.emptyDue || s.dev.metro.differs }
        ∧ (∀ (z : ZeroCapture) (tag : Byte), s.dev.metro.zeroCapture = some z →
          s.dev.links.service.slot = some ⟨0x64#8, tag, false⟩ →
          t.links.service.slot = none ∧ t.answered s.dev .service [⟨0x64#8, tag, .switchOpen, .none⟩])
        ∧ (s.dev.metro.zeroCapture = none →
          t.links.service.slot = s.dev.links.service.slot ∧ t.answered s.dev .service [])
        ∧ (∃ c ∈ t.links.service.causes, c.cause = .calAborted s.dev.metro.differs)
        ∧ t = { s.dev with pins := { s.dev.pins with switchClosed := false }, metro := t.metro, weighing := t.weighing,
                           cells := t.cells, links := t.links }

/-- What every start-up begins with: the write queue and the index empty, the counters, the patrol and the sweep count 0, no
blank-start mark, every link HUNTING with nothing in its slot or its queue, no cause but CLOCK_INVALID on the console link of an
invalid clock, no line asserted; the store, the clock and the inputs stand. POWER_FAIL_WARNING drops what has not begun, poisons the
completion word of the record in progress unless only that word is left, and leaves every other slot's words as they are; a scrub at
the head is written where its word still reads CORRECTED; POWER_ON and POWER_FAIL_WITHDRAWN begin a start-up over the words the
hold-up supply wrote (sections 8.1, 8.4 and 11.6). The operands as numbers of words written, the head entry taken as begun, POWER_ON
in any phase, and the withdrawal writing every word left are the model's choice (log entry 11). -/
def Obligations.PowerEventsFollowRules : Prop :=
  (∀ (nv : Memory) (clock : Clock) (pins : Pins),
    let d := Dev.start nv clock pins
    d.phase = .scanning ∧ d.nv = nv ∧ d.clock = clock ∧ d.pins = pins ∧ d.restartPending = none
    ∧ d.store.queue = [] ∧ d.store.waiting = [] ∧ d.store.cut = [] ∧ d.store.corrected = 0 ∧ d.store.uncorrectable = 0
    ∧ (∀ (r : Region) (slot : Nat), (d.store.indexAt r slot).cls = .absent)
    ∧ d.store.patrol = 0 ∧ d.store.sweeps = 0 ∧ d.store.blankStart = false
    ∧ ∀ l : Link,
      (d.links.get l).assembly = .hunting ∧ (d.links.get l).slot = none ∧ (d.links.get l).handedOff = none
      ∧ (d.links.get l).tx = [] ∧ (d.links.get l).waiting = [] ∧ (d.links.get l).errors = 0 ∧ d.attentionLine l = false
      ∧ (d.links.get l).causes =
          (if l = .console ∧ clock.valid = false then [⟨.clockInvalid clock.count, 0⟩] else []))
  ∧
  (∀ (s : State) (n : Nat), s.dev.phase ≠ .powerFail →
    ∃ t : Dev, exec (.powerFailWarning n) s = s.goesTo t ∧ t.phase = .powerFail ∧ t.store.queue = [] ∧ t.store.waiting = []
      ∧ t.bridge.request = none ∧ t.metro.working = none ∧ t.metro.session = none ∧ t.metro.zeroCapture = none
      ∧ t.clock = s.dev.clock ∧ t.tickets = s.dev.tickets ∧ t.yard = s.dev.yard
      ∧ (s.dev.store.queue = [] → t.nv = s.dev.nv ∧ t.store.cut = [])
      ∧ (∀ (a : Nat) (rest : List QueueEntry), s.dev.store.queue = .scrub a :: rest → t.store.cut = []
        ∧ (∀ w, (readClass (Memory.read s.dev.nv a) = (.corrected, some w)
            ∨ readClass (Memory.read s.dev.nv a) = (.correctedCheck, some w)) →
          t.nv = Memory.write s.dev.nv a (encodeWord w))
        ∧ ((readClass (Memory.read s.dev.nv a)).1 = .clean ∨ (readClass (Memory.read s.dev.nv a)).1 = .double →
          t.nv = s.dev.nv))
      ∧ ∀ (spec : RecordSpec) (copy count : Nat) (rep : Option Done) (rest : List QueueEntry),
        s.dev.store.queue = .record spec copy count rep :: rest → Memory.wf s.dev.nv = true →
        let words := recordWords spec copy count
        let base := recordBase spec.region spec.slot copy
        (∀ a, (a < base ∨ base + spec.region.words ≤ a) → Memory.read t.nv a = Memory.read s.dev.nv a)
        ∧ (words.length ≤ n + 1 → t.nv = Memory.writeAll s.dev.nv words ∧ t.store.cut = [])
        ∧ (n + 1 < words.length → t.store.cut = words.drop n
          ∧ readClass (Memory.read t.nv (base + spec.region.words - 1)) = (.double, none)))
  ∧ (∀ (s : State) (n : Nat) (lost : Bool), exec (.powerOn n lost) s = s.goesTo
      (Dev.start (Memory.writeAll s.dev.nv (s.dev.store.cut.take n)) (if lost then ⟨0, false⟩ else s.dev.clock) s.dev.pins))
  ∧ ∀ s : State, s.dev.phase = .powerFail →
    exec .powerFailWithdrawn s = s.goesTo (Dev.start (Memory.writeAll s.dev.nv s.dev.store.cut) s.dev.clock s.dev.pins)

/-- The scan gives each slot its class, by the words of its record, or of the current copy of a paired slot: which copy is current,
by the two copy counts; the class by the completion word, the first word, the kind, the key and any DOUBLE word; the key, and the
words of a VALID record; the next-write copy and count of a paired slot, the index entry of an archive or trail slot, and each
region's counts. It reads the slots in order and every word once: each CORRECTED word is counted and has its scrub write entered, in
the order of their addresses and ahead of the other start-up writes; each DOUBLE word is counted, and one in a single slot or in the
current copy, but for its completion word, raises STORE_FAULT with the source SCAN on the console and the service link.
START_UP_SCAN_END: whatever the store holds, the blocks take their start values, each port in use is SUSPECT with one failure, the
links take their settings' rates, and the clock and the store's words stand; a store never written gives the blank set, the defaults
and empty tables (sections 1.1, 1.2, 1.3, 1.4, 2.1, 2.3, 3.1, 8.1, 8.2, 8.5 and 9.1). What the last bridge sample result holds until
the first sample, that copy 0 lies before copy 1, and that a copy count other than 0 in the archives and the trail is not judged,
are the model's choices (log entries 2, 5 and 78); that of two copies that qualify copy 1 is current where its count is one more
than copy 0's, and copy 0 otherwise, is its reading (log entry 24). -/
def Obligations.ScanEndStartsBlocks : Prop :=
  (∀ s : State, s.dev.phase = .scanning → s.storeCanonical → s.dev.store = Store.start →
    let found := s.dev.scan.1
    let after := s.dev.scan.2.store
    -- each slot once, and each region's counts
    (found.map fun x => (x.region, x.slot)).Nodup
    ∧ (∀ r : Region,
      let many := fun (c : SlotClass) => (found.filter fun x => x.region == r && x.cls == c).length
      after.counts[r.index]? = some
        { valid := many .valid, interrupted := many .interrupted, damaged := many .damaged,
          absent := r.slots - (many .valid + many .interrupted + many .damaged) })
    -- the slots in order, every one with a word written among them
    ∧ (found.map fun x => slotNumber x.region x.slot).Pairwise (· < ·)
    ∧ (∀ w ∈ s.dev.nv, ∃ x ∈ found, slotNumber x.region x.slot = slotOfAddress w.1)
    ∧ (∃ t : Dev, exec .startUpScanEnd s = s.goesTo t ∧ t.store.counts = after.counts
      -- every word read once; an unlisted word reads 0, which is CLEAN
      ∧ (let reads := fun (c : WordClass) (w : Nat × StoreWord) => (readClass w.2).1 == c
        let corrected := s.dev.nv.filter fun w => reads .corrected w || reads .correctedCheck w
        let faults : List Cause := found.flatMap fun x =>
          let base := recordBase x.region x.slot
            (if x.region.paired then 1 - (after.pairAt x.region x.slot).nextCopy else 0)
          let last := x.region.words - 1
          let key := (readClass (Memory.read s.dev.nv (base + last))).2.map fun w => w.toNat % 2 ^ 27
          ((List.range last).filter fun i => (readClass (Memory.read s.dev.nv (base + i))).1 == .double).map fun _ =>
            .storeFault x.region x.slot key .scan
        t.store.corrected = min corrected.length 65535
        ∧ t.store.uncorrectable = min (s.dev.nv.filter (reads .double)).length 65535
        ∧ (corrected.map fun w => QueueEntry.scrub w.1) <+: t.store.queue ++ t.store.waiting
        ∧ ∀ l : Link, l = .console ∨ l = .service → (∀ p ∈ (s.dev.links.get l).causes, priority l p.cause ≠ 1) →
          (faults = [] → ∀ p ∈ (t.links.get l).causes, priority l p.cause ≠ 1)
          ∧ ∀ (before : List Cause) (c : Cause), faults = before ++ [c] →
            ⟨c, min before.length 255⟩ ∈ (t.links.get l).causes)
      ∧ ∀ (r : Region) (slot : Nat),
        (∀ (spec : RecordSpec) (copy count : Nat) (report : Option Done),
          QueueEntry.record spec copy count report ∈ t.store.queue ++ t.store.waiting → spec.region ≠ r ∨ spec.slot ≠ slot) →
        t.store.pairAt r slot = after.pairAt r slot ∧ t.store.indexAt r slot = after.indexAt r slot)
    ∧ ∀ (r : Region) (slot : Nat), slot < r.slots →
      -- the words of a copy, and the fields of its completion word
      let word := fun (copy i : Nat) => readClass (Memory.read s.dev.nv (recordBase r slot copy + i))
      let completion := fun (copy : Nat) => word copy (r.words - 1)
      let field := fun (copy low size : Nat) => match (completion copy).2 with | some w => w.toNat / 2 ^ low % 2 ^ size | none => 0
      let kind := fun (copy : Nat) => field copy 29 3
      let count := fun (copy : Nat) => field copy 27 2
      let key := fun (copy : Nat) => field copy 0 27
      let sound := fun (copy : Nat) => (completion copy).1 ≠ .double
      let stands := fun (copy : Nat) => sound copy ∧ ((word copy 0).1 = .double ∨ (word copy 0).2 = (completion copy).2)
      let belongs := fun (copy : Nat) =>
        match r with
        | .parameters => kind copy = 7 ∧ key copy = 2
        | .counters => kind copy = 7 ∧ key copy = 1
        | .visits => kind copy = 3 ∧ 1 ≤ key copy ∧ key copy ≤ 65535
        | .tares => kind copy = 4 ∧ 1 ≤ key copy ∧ key copy ≤ 99999999
        | .queue => kind copy = 5 ∧ 1 ≤ key copy ∧ key copy ≤ 99999999
        | .weighings => kind copy = 1 ∧ 1 ≤ key copy ∧ key copy ≤ 99999999 ∧ (key copy - 1) % 4096 = slot
        | .tickets => kind copy = 2 ∧ 1 ≤ key copy ∧ key copy ≤ 99999999 ∧ (key copy - 1) % 2048 = slot
        | .trail => kind copy = 6 ∧ 1 ≤ key copy ∧ key copy ≤ 134217727 ∧ (key copy - 1) % 512 = slot
      let broken := fun (copy : Nat) => ∃ i < r.words, (word copy i).1 = .double
      ∃ (current : Nat) (cls : SlotClass),
        -- the current copy
        (r.paired = false → current = 0)
        ∧ (r.paired = true → stands 0 → stands 1 →
          (count 1 = (count 0 + 1) % 4 → current = 1) ∧ (count 1 ≠ (count 0 + 1) % 4 → current = 0))
        ∧ (r.paired = true → ¬ stands 0 → stands 1 → current = 1)
        ∧ (¬ stands 1 → current = 0)
        -- the class
        ∧ (r.paired = true → ¬ stands 0 → ¬ stands 1 →
          (¬ (sound 0 ∧ sound 1) → cls = .interrupted) ∧ (sound 0 → sound 1 → cls = .absent))
        ∧ (r.paired = false ∨ stands 0 ∨ stands 1 →
          (¬ sound current → cls = .interrupted)
          ∧ (sound current → ¬ (stands current ∧ belongs current) → cls = .absent)
          ∧ (stands current → belongs current → broken current → cls = .damaged)
          ∧ (stands current → belongs current → ¬ broken current → cls = .valid))
        -- what the scan hands on of it
        ∧ (cls ≠ .absent → ∃ x ∈ found, x.region = r ∧ x.slot = slot)
        ∧ (∀ x ∈ found, x.region = r → x.slot = slot → x.cls = cls ∧ x.key = key current
          ∧ (cls = .valid → x.body = (List.range (r.words - 2)).map fun i => ((word current (i + 1)).2).getD 0#32))
        ∧ (r.paired = true → after.pairAt r slot = ⟨1 - current, (count current + 1) % 4⟩)
        ∧ (r.paired = false →
          (cls = .absent → (after.indexAt r slot).cls = .absent)
          ∧ (cls ≠ .absent → after.indexAt r slot = ⟨cls, key current⟩)))
  ∧ ∀ s : State, s.dev.phase = .scanning →
    ∃ t : Dev, exec .startUpScanEnd s = s.goesTo t ∧ t.phase = .startWrites ∧ t.weighing = Weighing.start
      ∧ t.axle = AxleUnit.start ∧ t.bridge = Bridge.start s.dev.pins.entryBlocked s.dev.pins.exitBlocked
      ∧ (∀ p : Fin 18, t.port p.val =
          if t.metro.current.inUse p.val then ⟨none, false, false, 1, 0, 0, .suspect⟩
          else ⟨none, false, false, 0, 0, 0, .absent⟩)
      ∧ t.metro.working = none ∧ t.metro.session = none ∧ t.metro.zeroCapture = none
      ∧ t.metro.switchClosed = s.dev.pins.switchClosed
      ∧ (∀ l, (t.links.get l).rate = t.metro.site.rate l)
      ∧ t.nv = s.dev.nv ∧ t.clock = s.dev.clock ∧ t.pins = s.dev.pins
      ∧ (s.dev.nv = [] → t.metro.current = ParamSet.blank ∧ t.metro.site = SiteSettings.defaults ∧ t.metro.generation = 0
        ∧ t.metro.status = .pending ∧ t.metro.lastSeq = 0 ∧ t.store.blankStart = true ∧ t.yard.visits = []
        ∧ t.tickets.queue = [] ∧ t.tickets.tares = [] ∧ t.tickets.lastWeighing = 0 ∧ t.tickets.lastTicket = 0)

/-- START_UP_SCAN_END over a written store, for the visits, the ticket queue, the stored tares and the numbers. A VALID visit is kept,
or expires where its first weighing is not in the archive; a DAMAGED one is removed; one with a closing number is settled by the
ticket archive: completed with its queue entry, removed, or kept with the number cleared. A queue slot gives its entry, DAMAGED ones
from the ticket archive where that holds the ticket; a second slot of a number is cleared. Of two tares of one identity the later is
kept. The last numbers are the highest that the scan found (sections 5.1, 5.6, 6.1, 6.4, 7.1 and 8.5). What a value barred by its
layout makes of a record is DAMAGED too. Which visits count for the last allocated number, that a queue of 32 takes no further ticket,
and what a slot with the DAMAGED mark restores, are the model's choices (log entries 53, 54 and 64); visits are stated where no two
slots carry one number (log entry 63 settles that case), and tares of one identity where no two are equal in time and number (log
entry 68). -/
def Obligations.StartUpRestoresRecords : Prop :=
  ∀ s : State, s.dev.phase = .scanning → s.storeCanonical → s.dev.store = Store.start →
    ∃ t : Dev, exec .startUpScanEnd s = s.goesTo t ∧
      let found := fun (r : Region) => s.dev.scan.1.filter (·.region == r)
      let holds := fun (x : ScanSlot) => x.cls = .valid ∨ x.cls = .damaged
      let highest := fun (r : Region) =>
        (((found r).filter fun x => x.cls == .valid || x.cls == .damaged).map (·.key)).foldl max 0
      let writes := fun (spec : RecordSpec) (report : Done) =>
        ∃ copy count, QueueEntry.record spec copy count (some report) ∈ t.store.queue ++ t.store.waiting
      let present := fun (n : Nat) => ∃ x ∈ found .weighings, holds x ∧ x.key = n
      let archived := fun (n : Nat) (k : Ticket) =>
        ∃ x ∈ found .tickets, x.cls = .valid ∧ x.key = n ∧ ticketOfWords n x.body = some k
      let visit := fun (x : ScanSlot) (v : Visit) (closing : Option Nat) =>
        x ∈ found .visits ∧ x.cls = .valid ∧ visitOfWords x.slot x.key x.body = some (v, closing)
      let lacksFirst := fun (v : Visit) => v.state ≠ .awaitingFirst ∧ ∀ f, v.first = some f → ¬ present f.number
      let alone := fun (x : ScanSlot) => ∀ y ∈ found .visits, holds y → y.key = x.key → y = x
      let gone := fun (v : Visit) => (∀ u ∈ t.yard.visits, u.number ≠ v.number) ∧ writes (removal .visits v.slot) .nothing
      let expired := fun (v : Visit) => gone v ∧ ∃ p ∈ t.links.console.causes, ∃ m who n, p.cause = .visitExpired m who n
      -- the numbers, and no visit in use
      (t.tickets.lastWeighing = highest .weighings
        ∧ t.tickets.lastTicket = max (highest .tickets) (highest .queue) ∧ t.yard.inUse = none
        ∧ (∀ (x : ScanSlot) (v : Visit) (c : Option Nat), visit x v c → c ≠ none ∨ ¬ lacksFirst v →
          x.key ≤ t.yard.lastNumber)
        ∧ (t.yard.lastNumber = 0 ∨ ∃ (x : ScanSlot) (v : Visit) (c : Option Nat),
          visit x v c ∧ (c ≠ none ∨ ¬ lacksFirst v) ∧ x.key = t.yard.lastNumber))
      -- the register
      ∧ (∀ v ∈ t.yard.visits, ∃ (x : ScanSlot) (c : Option Nat), visit x v c)
      ∧ (∀ (x : ScanSlot) (v : Visit), visit x v none → alone x →
        (¬ lacksFirst v → v ∈ t.yard.visits) ∧ (lacksFirst v → expired v))
      ∧ (∀ x ∈ found .visits, x.cls = .damaged ∨ (x.cls = .valid ∧ visitOfWords x.slot x.key x.body = none) → alone x →
        (∀ u ∈ t.yard.visits, u.number ≠ x.key) ∧ writes (removal .visits x.slot) .nothing
          ∧ ∃ p ∈ t.links.console.causes, ∃ n, p.cause = .visitDamaged n)
      ∧ (∀ (x : ScanSlot) (v : Visit) (n : Nat), visit x v (some n) → alone x →
        let queued := ∃ y ∈ found .queue, holds y ∧ y.key = n
        (∀ k : Ticket, archived n k → k.visit = v.number → ¬ queued → t.tickets.queue.length < 32 →
          gone v ∧ ∃ slot, ⟨n, false, some k, 0, slot⟩ ∈ t.tickets.queue ∧ writes (queueSpec slot n (some k)) (.post n))
        ∧ (∀ k : Ticket, archived n k → k.visit = v.number → queued → gone v ∧ ∃ e ∈ t.tickets.queue, e.number = n ∧ e.posted = true)
        ∧ ((∃ y ∈ found .tickets, y.key = n ∧ (y.cls = .damaged ∨ (y.cls = .valid ∧ ticketOfWords n y.body = none))) → gone v)
        ∧ ((∃ k : Ticket, archived n k ∧ k.visit ≠ v.number) ∨ (∀ y ∈ found .tickets, holds y → y.key ≠ n) →
          writes (visitSpec v none) .nothing ∧ (¬ lacksFirst v → v ∈ t.yard.visits) ∧ (lacksFirst v → expired v)))
      -- the ticket queue
      ∧ (∀ e ∈ t.tickets.queue, e.takes = 0 ∧
        ((e.posted = true ∧ ∃ x ∈ found .queue, holds x ∧ x.key = e.number ∧ x.slot = e.slot)
          ∨ (e.posted = false ∧ ∃ (x : ScanSlot) (v : Visit), visit x v (some e.number))))
      ∧ (∀ x ∈ found .queue, holds x →
        let entry := fun (k : Option Ticket) => (⟨x.key, true, k, 0, x.slot⟩ : QueueTicket) ∈ t.tickets.queue
        ((∀ y ∈ found .queue, holds y → y.key = x.key → x.slot ≤ y.slot) →
          let unread : Prop := x.cls = .damaged ∨ queueOfWords x.key x.body = none
          (x.cls = .valid → queueDamagedMark x.body = false → ∀ k, ticketOfWords x.key x.body = some k → entry (some k))
          ∧ (x.cls = .valid → queueDamagedMark x.body = true → entry none)
          ∧ (unread → ∀ k, archived x.key k → entry (some k) ∧ writes (queueSpec x.slot x.key (some k)) .nothing)
          ∧ (unread → (∀ k, ¬ archived x.key k) → entry none))
        ∧ ((∃ y ∈ found .queue, holds y ∧ y.key = x.key ∧ y.slot < x.slot) →
          writes (removal .queue x.slot) .nothing ∧ ∀ e ∈ t.tickets.queue, e.number = x.key → e.slot ≠ x.slot))
      -- the stored tares
      ∧ let tare := fun (x : ScanSlot) (e : TareEntry) =>
          x ∈ found .tares ∧ x.cls = .valid ∧ tareOfWords x.slot x.key x.body = some e
        let later := fun (a b : TareEntry) => b.time < a.time ∨ (a.time = b.time ∧ b.weighing < a.weighing)
        (∀ e ∈ t.tickets.tares, ∃ x, tare x e)
        ∧ (∀ (x : ScanSlot) (e : TareEntry), tare x e →
          ((∀ (y : ScanSlot) (f : TareEntry), tare y f → f.identity = e.identity → y ≠ x → later e f) → e ∈ t.tickets.tares)
          ∧ ((∃ (y : ScanSlot) (f : TareEntry), tare y f ∧ f.identity = e.identity ∧ later f e) →
            e ∉ t.tickets.tares ∧ writes (removal .tares x.slot) .nothing))
        ∧ ∀ x ∈ found .tares, x.cls = .damaged ∨ (x.cls = .valid ∧ tareOfWords x.slot x.key x.body = none) →
          writes (removal .tares x.slot) .nothing ∧ ∀ e ∈ t.tickets.tares, e.slot ≠ x.slot

/-- START_UP_SCAN_END over a written store, for the metrology unit: the parameter set, the settings, the generation and a first status
from the two blocks, or a blank start; the trail's last sequence number and archive boundary; a commit cut off before its parameter
block recorded by a COMMIT_CUT event, one cut off before its counters block finished by writing that; a SITE SET cut off completed;
the status of a trail record whose counters block was not written; a finding for each DAMAGED slot and each lost record that no event
names, with INTEGRITY; VERIFY_STATUS and TRAIL_NEAR_FULL (sections 8.5, 9.5, 10.3 to 10.6). That COMMIT_CUT is owed to the highest
such header alone, and to none that an event names, and that a counters block not VALID lags a parameter block of a generation above
0, are the model's readings (log entry 29). The status sequence written behind the findings, that TRAIL_NEAR_FULL is raised once,
where the parameter block stands among these writes, and the source SCAN of COMMIT_CUT, are its choices (log entries 56, 65, 66 and
72). -/
def Obligations.StartUpRestoresMetrology : Prop :=
  ∀ s : State, s.dev.phase = .scanning → s.storeCanonical → s.dev.store = Store.start →
    ∃ t : Dev, exec .startUpScanEnd s = s.goesTo t ∧
      let found := fun (r : Region) => s.dev.scan.1.filter (·.region == r)
      let writes := fun (spec : RecordSpec) =>
        ∃ copy count, QueueEntry.record spec copy count (some .nothing) ∈ t.store.queue ++ t.store.waiting
      let param := (found .parameters).findSome? fun x => if x.cls = .valid then paramOfWords x.body else none
      let counters := (found .counters).findSome? fun x => if x.cls = .valid then countersOfWords x.body else none
      let trail := (found .trail).filterMap fun x => if x.cls = .valid then trailOfWords x.key x.body else none
      let last := (((found .trail).filter fun x => x.cls == .valid || x.cls == .damaged).map (·.key)).foldl max 0
      let m := t.metro
      let highestOf := fun (p : TrailRecord → Prop) (r : TrailRecord) =>
        (r ∈ trail ∧ p r) ∧ ∀ x ∈ trail, p x → x.sequence ≤ r.sequence
      let named := fun (q : Nat) => ∃ r ∈ trail, ∃ reason source, r.body = .integrityEvent reason source q
      let event := fun (reason : IntegrityReason) (q : Nat) => ∃ seq, last < seq ∧ seq ≤ m.lastSeq ∧
        writes (trailSpec ⟨seq, if s.dev.clock.valid then some s.dev.clock.count else none, m.generation,
          .integrityEvent reason .scan q⟩)
      let room : Prop := m.lastSeq - m.boundary < 511 ∧ m.lastSeq < 134217727
      -- what each finding is (the trail's fourth step)
      let damaged := fun (q : Nat) => ¬ named q ∧ ∃ x ∈ found .trail, x.key = q
        ∧ (x.cls = .damaged ∨ (x.cls = .valid ∧ trailOfWords q x.body = none))
      let lost := fun (q : Nat) => ¬ named q ∧ m.boundary < q ∧ q < last
        ∧ ∃ x ∈ found .trail, x.cls = .interrupted ∧ (q - 1) % 512 = x.slot
      let findings : Prop := ∃ q, damaged q ∨ lost q
      -- the status that a trail record gives
      let gives := fun (r : TrailRecord) (st : VerStatus) =>
        (st = .pending ∧ ∃ a b c d e f g, r.body = .calCommit a b c d e f g)
          ∨ (∃ a b c d e f g h, r.body = .auditResult true a b c d e f g h ∧ st = .verified)
          ∨ (∃ a b c d e f g h, r.body = .auditResult false a b c d e f g h ∧ st = .failed)
          ∨ (st = .integrity ∧ ∃ source q,
            r.body = .integrityEvent .damagedRecord source q ∨ r.body = .integrityEvent .lostRecord source q)
      let statusSeq := match counters with | some (g, _, q) => if g = m.generation then q else 0 | none => 0
      let cut := fun (r : TrailRecord) =>
        highestOf (fun x => x.generation = m.generation ∧ ∃ st, gives x st) r ∧ statusSeq < r.sequence
      let siteCut := fun (id : Nat) (old new : Int) (before after : SiteSettings) =>
        (∃ r, highestOf (fun _ => True) r ∧ r.body = .siteChange id old new) ∧ before.get id ≠ new ∧ before.set? id new = some after
      -- the blocks
      (∀ (p : ParamSet) (g : Nat) (site : SiteSettings), param = some (p, g, site) →
        m.current = p ∧ m.paramHeld = true ∧ t.store.blankStart = false
        ∧ m.generation = (match counters with | some (c, _, _) => max g c | none => g)
        ∧ ((∀ id old new after, ¬ siteCut id old new site after) → m.site = site)
        ∧ (∀ id old new after, siteCut id old new site after →
          m.site = after ∧ writes (paramSpec p m.generation after))
        ∧ (¬ findings → (∀ r, ¬ cut r) →
          m.status = (match counters with | some (c, st, _) => if c = g then st else .pending | none => .pending))
        ∧ (¬ findings → (match counters with | some (c, _, _) => c | none => 0) < g →
          writes (countersSpec m.generation m.status m.statusSeq)))
      ∧ (param = none →
        m.current = ParamSet.blank ∧ m.site = SiteSettings.defaults ∧ m.paramHeld = false ∧ t.store.blankStart = true
        ∧ m.generation = (match counters with
            | some (c, _, _) => c
            | none => (trail.map (·.generation)).foldl max 0)
        ∧ (¬ findings → (∀ r, ¬ cut r) → m.status = .pending))
      -- the trail's numbers
      ∧ (last ≤ m.lastSeq ∧ m.lastSeq - m.boundary ≤ 511 ∧ last ≤ m.boundary + 511
        ∧ (∀ r ∈ trail, ∀ b n u, r.body = .archive b n u → b ≤ m.boundary)
        ∧ (m.boundary = 0 ∨ m.boundary + 511 = last ∨ ∃ r ∈ trail, ∃ n u, r.body = .archive m.boundary n u))
      -- a commit cut off before its parameter block
      ∧ (∀ r, highestOf (fun x => x.generation = m.generation + 1 ∧ ∃ a b c d e f g, x.body = .calCommit a b c d e f g) r →
        (named r.sequence → ¬ event .commitCut r.sequence) ∧ (¬ named r.sequence → room → event .commitCut r.sequence))
      -- a status write cut off before its counters block
      ∧ (∀ (r : TrailRecord) (st : VerStatus), cut r → gives r st →
        writes (countersSpec m.generation st r.sequence)
        ∧ (¬ findings → m.status = st ∧ m.statusSeq = r.sequence))
      ∧ (¬ findings → (∀ r, ¬ cut r) → m.statusSeq = statusSeq)
      -- the findings
      ∧ (findings → m.status = .integrity ∧ writes (countersSpec m.generation .integrity m.statusSeq)
        ∧ (room → m.statusSeq = m.lastSeq))
      ∧ (room → ∀ q, (damaged q → event .damagedRecord q) ∧ (lost q → event .lostRecord q))
      ∧ (¬ findings → (∀ r ∈ trail, r.generation = m.generation + 1 → ∀ a b c d e f g, r.body ≠ .calCommit a b c d e f g) →
        m.lastSeq = last)
      -- the causes
      ∧ (m.status ≠ .verified → ∀ l : Link, l = .console ∨ l = .service →
        ∃ p ∈ (t.links.get l).causes, p.cause = .verifyStatus m.status m.generation .start)
      ∧ (480 ≤ m.lastSeq - m.boundary →
        ∃ p ∈ t.links.service.causes, p.cause = .trailNearFull (m.lastSeq - m.boundary) (512 - (m.lastSeq - m.boundary)))

/-- LINKS_ACCEPT_FRAMES after the last start-up write; RESTART answered OK, taking effect once its response has gone, draining the
store, and beginning the start-up, with the start values that PowerEventsFollowRules gives, when all is written and sent (sections
8.3, 8.4 and 11.6). That RESTART ends a held release, a zero capture and a waiting point without a response, and that
RESTART_TAKES_EFFECT without its occasion changes nothing, are the model's choices (log entries 38 and 7). -/
def Obligations.StartUpAndRestartProceed : Prop :=
  (∀ s : State, s.dev.phase = .startWrites → s.dev.store.queue = [] → s.dev.store.waiting = [] →
    ∃ t : Dev, exec .linksAcceptFrames s = s.goesTo t ∧ t = { s.dev with phase := .running, links := t.links }
      ∧ (s.dev.metro.site.threshold ≤ (s.dev.tickets.queue.filter (·.posted)).length →
        ∃ c ∈ t.links.inventory.causes, ∃ n k, c.cause = .ticketAvailable n k)
      ∧ (s.dev.tickets.queue.length = 32 →
        (∃ c ∈ t.links.console.causes, ∃ h, c.cause = .queueFull 32 h)
          ∧ ∃ c ∈ t.links.inventory.causes, ∃ h, c.cause = .queueFull 32 h))
  ∧ (∀ (s : State) (tag : Byte), s.dev.ready .service →
    exec (.restart tag) s = s.goesTo { (s.dev.respond .service 0x71#8 tag .ok .none) with
      restartPending := some (match s.dev.restartPending with
        | some n => n
        | none => s.dev.links.service.tx.length + 1) })
  ∧ (∀ (s : State) (n : Nat), s.dev.restartPending = some (n + 1) ∨ s.dev.restartPending = none →
    exec .restartTakesEffect s = .next s)
  ∧ (∀ s : State, s.dev.phase = .running → s.dev.restartPending = some 0 →
    ∃ t : Dev, exec .restartTakesEffect s = s.goesTo t ∧ t.phase = .draining ∧ t.restartPending = none
      ∧ t.metro.working = none ∧ t.metro.session = none ∧ t.metro.zeroCapture = none
      ∧ t.links.service.handedOff = none ∧ t.bridge.heldRelease = false
      ∧ (s.dev.bridge.state = .waiting → t.bridge.request = none ∧ t.links.lane.handedOff = none)
      ∧ (∀ l, (t.links.get l).assembly = .hunting ∧ (t.links.get l).tx = (s.dev.links.get l).tx
        ∧ (t.links.get l).waiting = (s.dev.links.get l).waiting ∧ (t.links.get l).newRates = (s.dev.links.get l).newRates)
      ∧ t.store = s.dev.store ∧ t.nv = s.dev.nv ∧ t.yard = s.dev.yard ∧ t.tickets = s.dev.tickets ∧ t.clock = s.dev.clock)
  ∧ ∀ s : State, s.dev.phase = .draining → s.dev.store.queue = [] → s.dev.store.waiting = [] →
    (∀ l, (s.dev.links.get l).tx = [] ∧ (s.dev.links.get l).waiting = []) →
    exec .restartDrainComplete s = s.goesTo (Dev.start s.dev.nv s.dev.clock s.dev.pins)

/-- STORE_RECORD_WRITTEN writes the record at the head whole, lets the next waiting record in, and answers the command whose last
record it was, unless a break has silenced that: a write that answers nobody (a start-up write, an integrity write, a repair) reports
to nobody; SET TIME with the clock set, SITE SET with any rate it gives, CAL EXIT COMMIT and,
where the status changed, AUDIT END with VERIFY_STATUS, TRAIL ARCHIVE and TICKET CLEAR with the trail and the queue as they stand, a
WEIGH with its causes, its ticket posted with QUEUE_FULL where 32 are held, its visit's use ended and a held release applied; a
ticket completed at start-up is POSTED. SCRUB_WRITE writes a corrected word back, drops a clean one, and drops one that reads
DOUBLE, with the repair of a paired slot's current copy (sections 2.4, 2.5, 5.2, 7.1, 7.2, 8.1, 8.3, 8.6, 9.5, 10.3, 10.4, 10.5,
11.1 and 11.5). That the record's write sets the clock once more, what a rate waits for and that it waits no more where a break has
silenced its SITE SET, that TICKET CLEAR's entries left and TRAIL ARCHIVE's unarchived count and free spaces are those at the report
of the write, and that a scrub's read enters a repair, are the model's readings (log entries 10, 37, 39 and 51). -/
def Obligations.QueuedWritesComplete : Prop :=
  ∀ (s : State) (rest : List QueueEntry),
    s.dev.phase = .startWrites ∨ s.dev.phase = .running ∨ s.dev.phase = .draining →
    (∀ (spec : RecordSpec) (copy count : Nat), s.dev.store.queue = .record spec copy count none :: rest →
      exec .storeRecordWritten s = s.goesTo { s.dev with
        nv := Memory.writeAll s.dev.nv (recordWords spec copy count),
        store := { (s.dev.store.written spec) with
          queue := (rest ++ s.dev.store.waiting).take 16, waiting := (rest ++ s.dev.store.waiting).drop 16 } })
    ∧ (∀ (spec : RecordSpec) (copy count : Nat) (done : Done), s.dev.store.queue = .record spec copy count (some done) :: rest →
      let d : Dev := { s.dev with
        nv := Memory.writeAll s.dev.nv (recordWords spec copy count),
        store := { (s.dev.store.written spec) with
          queue := (rest ++ s.dev.store.waiting).take 16, waiting := (rest ++ s.dev.store.waiting).drop 16 } }
      -- the slot freed, with its response unless a break has silenced it
      let freed := fun (silent : Bool) (r : Response) (k : LinkState) =>
        if silent then { k with slot := none } else ({ k with slot := none } : LinkState).send r
      let raised := fun (c : VerifyCause) (a : Dev) =>
        let cause := Cause.verifyStatus s.dev.metro.status s.dev.metro.generation c
        (a.raise .console cause).raise .service cause
      (done = .nothing → exec .storeRecordWritten s = s.goesTo d)
      ∧ (∀ (new seq : Nat) (old : Option Nat) (code tag : Byte) (silent : Bool), done = .setTime new old seq →
        s.dev.links.console.slot = some ⟨code, tag, silent⟩ →
        exec .storeRecordWritten s = s.goesTo (({ d with clock := ⟨new, true⟩ } : Dev).onLink .console fun k =>
          freed silent ⟨code, tag, .ok, .timeSet old seq⟩
            { k with causes := k.causes.filter fun p => match p.cause with | .clockInvalid _ => false | _ => true }))
      ∧ (∀ (seq : Nat) (rate : Option (Link × Baud)) (code tag : Byte) (silent : Bool), done = .siteSet seq rate →
        s.dev.links.service.slot = some ⟨code, tag, silent⟩ →
        let a := d.onLink .service (freed silent ⟨code, tag, .ok, .number seq⟩)
        (rate = none → exec .storeRecordWritten s = s.goesTo a)
        ∧ ∀ (l : Link) (b : Baud), rate = some (l, b) →
          exec .storeRecordWritten s = s.goesTo (a.onLink l fun k => { k with newRates := k.newRates
            ++ [(b, if silent then 0 else s.dev.links.service.tx.length + s.dev.links.service.waiting.length + 1)] }))
      ∧ (∀ (g p seq : Nat) (code tag : Byte) (silent : Bool), done = .commit g p seq →
        s.dev.links.service.slot = some ⟨code, tag, silent⟩ →
        exec .storeRecordWritten s
          = s.goesTo (raised .commit (d.onLink .service (freed silent ⟨code, tag, .ok, .commit g p seq⟩))))
      ∧ (∀ (pass nc pf changed : Bool) (worst : Int) (seq : Nat) (code tag : Byte) (silent : Bool),
        done = .auditEnd pass nc pf worst seq changed → s.dev.links.service.slot = some ⟨code, tag, silent⟩ →
        let a := d.onLink .service (freed silent ⟨code, tag, .ok, .auditEnd pass nc pf worst seq⟩)
        exec .storeRecordWritten s = s.goesTo (if changed then raised .audit a else a))
      ∧ (∀ (seq : Nat) (code tag : Byte) (silent : Bool), done = .archive seq →
        s.dev.links.service.slot = some ⟨code, tag, silent⟩ →
        let left := s.dev.metro.lastSeq - s.dev.metro.boundary
        exec .storeRecordWritten s
          = s.goesTo (d.onLink .service (freed silent ⟨code, tag, .ok, .archive seq left (512 - left)⟩)))
      ∧ (∀ (code tag : Byte) (silent : Bool), done = .ticketClear →
        s.dev.links.inventory.slot = some ⟨code, tag, silent⟩ →
        exec .storeRecordWritten s
          = s.goesTo (d.onLink .inventory (freed silent ⟨code, tag, .ok, .number s.dev.tickets.queue.length⟩)))
      ∧ (∀ n : Nat, done = .post n → exec .storeRecordWritten s = s.goesTo { d with
        tickets := { d.tickets with queue := d.tickets.queue.map fun e => if e.number = n then { e with posted := true } else e } })
      ∧ ∀ (result : WeighResult) (causes : List Cause) (ticket : Option Nat), done = .weigh result causes ticket →
        let response := match s.dev.links.lane.handedOff with
          | some x => [⟨x.1, x.2, result.status, match result.fields with | some f => .weigh f | none => .none⟩]
          | none => ([] : List Response)
        ∃ t : Dev, exec .storeRecordWritten s = s.goesTo t
          ∧ t.nv = d.nv ∧ t.store = d.store ∧ t.metro = s.dev.metro ∧ t.clock = s.dev.clock
          ∧ t.tickets = { s.dev.tickets with queue := s.dev.tickets.queue.map fun e =>
              if ticket = (some e.number) then { e with posted := true } else e }
          ∧ t.yard = { s.dev.yard with
              inUse := none,
              visits := s.dev.yard.visits.filter fun v => !(s.dev.yard.inUse.any fun u => u.leaving && u.number == v.number) }
          ∧ (∀ n, ticket = some n → s.dev.metro.site.threshold ≤ (t.tickets.queue.filter (·.posted)).length →
            ∃ p ∈ t.links.inventory.causes, p.cause = .ticketAvailable (t.tickets.queue.filter (·.posted)).length n)
          ∧ (∀ (n : Nat) (e : QueueTicket) (behind : List QueueTicket), ticket = some n → s.dev.tickets.queue = e :: behind →
            (e :: behind).length = 32 →
            (∃ p ∈ t.links.console.causes, p.cause = .queueFull 32 e.number)
              ∧ ∃ p ∈ t.links.inventory.causes, p.cause = .queueFull 32 e.number)
          -- its causes, the last of each kind with its data, but QUEUE_FULL, which the posting may raise after them
          ∧ (∀ (before after : List Cause) (c : Cause), causes = before ++ c :: after →
            (∀ x ∈ after, priority .console x ≠ priority .console c) → priority .console c ≠ 7 →
            ∃ p ∈ t.links.console.causes, p.cause = c)
          ∧ (s.dev.bridge.heldRelease = false → t.answered s.dev .lane response
            ∧ t.bridge = { s.dev.bridge with
                request := none, leavingSeen := false, state := if s.dev.bridge.leavingSeen then .leaving else .standing }
            ∧ t = { d with tickets := t.tickets, yard := t.yard, bridge := t.bridge, links := t.links })
          ∧ ∀ tag : Byte, s.dev.bridge.heldRelease = true → s.dev.links.lane.slot = some ⟨0x23#8, tag, false⟩ →
            t.answered s.dev .lane (response ++ [⟨0x23#8, tag, .ok, .none⟩]) ∧ t.links.lane.slot = none
            ∧ t.bridge = { s.dev.bridge with
                request := none, leavingSeen := false, state := .empty, count := some 0, entryEnd := .pair,
                heldRelease := false }
            ∧ t.axle.queue = [] ∧ t.weighing.tracking = 0)
    ∧ (∀ (spec : RecordSpec) (copy count : Nat) (l : Link) (status : Status) (body : Body) (code tag : Byte) (silent : Bool),
      s.dev.store.queue = .record spec copy count (some (.answer l status body)) :: rest →
      (s.dev.links.get l).slot = some ⟨code, tag, silent⟩ →
      exec .storeRecordWritten s = s.goesTo (({ s.dev with
        nv := Memory.writeAll s.dev.nv (recordWords spec copy count),
        store := { (s.dev.store.written spec) with
          queue := (rest ++ s.dev.store.waiting).take 16,
          waiting := (rest ++ s.dev.store.waiting).drop 16 } } : Dev).onLink l fun k =>
            if silent then { k with slot := none } else ({ k with slot := none } : LinkState).send ⟨code, tag, status, body⟩))
    ∧ (∀ (spec : RecordSpec), spec.region.paired = false → spec.kind ≠ 0 →
      (s.dev.store.written spec).indexAt spec.region spec.slot = ⟨.valid, spec.key⟩)
    ∧ (∀ (a : Nat) (d : Word), s.dev.store.queue = .scrub a :: rest →
      (readClass (Memory.read s.dev.nv a) = (.corrected, some d)
        ∨ readClass (Memory.read s.dev.nv a) = (.correctedCheck, some d)) →
      exec .scrubWrite s = s.goesTo { s.dev with
        nv := Memory.write s.dev.nv a (encodeWord d),
        store := { s.dev.store with
          queue := (rest ++ s.dev.store.waiting).take 16, waiting := (rest ++ s.dev.store.waiting).drop 16 } })
    ∧ ∀ a : Nat, s.dev.store.queue = .scrub a :: rest →
      let popped : Dev := { s.dev with store := { s.dev.store with
        queue := (rest ++ s.dev.store.waiting).take 16, waiting := (rest ++ s.dev.store.waiting).drop 16 } }
      let slot := slotOfNumber (slotOfAddress a)
      ((readClass (Memory.read s.dev.nv a)).1 = .clean → exec .scrubWrite s = s.goesTo popped)
      ∧ ((readClass (Memory.read s.dev.nv a)).1 = .double →
        exec .scrubWrite s = s.goesTo
          (if s.dev.phase = .running ∧ popped.store.inCurrentCopy a = true ∧ popped.store.waiting = []
              ∧ popped.store.queue.length < 16 then
            popped.admitted [popped.ownerRecord slot.1 slot.2] .nothing
          else popped))

/-- PATROL passes over a slot to which a write is queued; otherwise it reads every copy of the slot and changes no word: each
CORRECTED word is counted and scrubbed where the queue has a space, each DOUBLE word counted. A DOUBLE word in the current copy of a
paired slot raises STORE_FAULT and enters one repair write of the record as the owner's state gives it, where there is a space; one in
a single slot raises STORE_FAULT, and marks a record DAMAGED, or the slot ABSENT where it is the completion word; in the trail that is
a finding, and the verification status becomes INTEGRITY. The position moves to the next slot, from the last to the first with the
sweep count raised (sections 5.2, 8.1, 8.6 and 10.6). That a record waiting to enter the queue, or a scrub, counts as a write queued,
that a copy not current raises no cause, that a slot the index gives as empty is read and reported like any other, and the finding for
a slot that holds no record, are the model's readings (log entries 25 and 26); that the scrubs of a slot are entered before its
repair, that an inner DOUBLE word makes a record DAMAGED whatever its first word holds, and that a slot the index gives as empty stays
so where its completion word is sound, are its choices (log entries 69, 70 and 77). -/
def Obligations.PatrolAdvances : Prop :=
  -- the record that the owner's state gives
  (∀ (d : Dev) (slot : Nat),
    let m := d.metro
    (m.paramHeld = true → d.ownerRecord .parameters slot = paramSpec m.current m.generation m.site)
    ∧ (m.paramHeld = false → d.ownerRecord .parameters slot = removal .parameters slot)
    ∧ d.ownerRecord .counters slot = countersSpec m.generation m.status m.statusSeq
    ∧ (∀ (before after : List Visit) (v : Visit), d.yard.visits = before ++ v :: after → v.slot = slot →
      (∀ u ∈ before, u.slot ≠ slot) →
      (d.yard.leaving v.number = false → d.ownerRecord .visits slot = visitSpec v none)
      ∧ (d.yard.leaving v.number = true → d.ownerRecord .visits slot = removal .visits slot))
    ∧ ((∀ v ∈ d.yard.visits, v.slot ≠ slot) → d.ownerRecord .visits slot = removal .visits slot)
    ∧ (∀ (before after : List TareEntry) (e : TareEntry), d.tickets.tares = before ++ e :: after → e.slot = slot →
      (∀ x ∈ before, x.slot ≠ slot) → d.ownerRecord .tares slot = tareSpec e)
    ∧ ((∀ e ∈ d.tickets.tares, e.slot ≠ slot) → d.ownerRecord .tares slot = removal .tares slot)
    ∧ (∀ (before after : List QueueTicket) (e : QueueTicket), d.tickets.queue = before ++ e :: after → e.slot = slot →
      (∀ x ∈ before, x.slot ≠ slot) → d.ownerRecord .queue slot = queueSpec slot e.number e.ticket)
    ∧ ((∀ e ∈ d.tickets.queue, e.slot ≠ slot) → d.ownerRecord .queue slot = removal .queue slot))
  ∧ ∀ s : State, s.dev.phase = .running → s.dev.store.corrected ≤ 65535 → s.dev.store.uncorrectable ≤ 65535 →
    let k := s.dev.store
    let r := (slotOfNumber k.patrol).1
    let slot := (slotOfNumber k.patrol).2
    let moved := fun (x : Store) =>
      if k.patrol + 1 < 7010 then { x with patrol := k.patrol + 1 }
      else { x with patrol := 0, sweeps := min (k.sweeps + 1) 65535 }
    let reads := (List.range r.copies).flatMap (readCopy s.dev.nv r slot)
    let corrected := reads.filter (·.wasCorrected)
    let counted : Store :=
      { k with
        corrected := min (k.corrected + corrected.length) 65535,
        uncorrectable := min (k.uncorrectable + (reads.filter (·.cls == .double)).length) 65535,
        queue := k.queue ++ if k.waiting = [] then (corrected.map fun w => .scrub w.address).take (16 - k.queue.length) else [] }
    (k.busy r slot = true ∨ (∀ w ∈ reads, w.cls = .clean) →
      exec .patrol s = s.goesTo { s.dev with store := moved k })
    ∧ (k.busy r slot = false →
      ∃ t : Dev, exec .patrol s = s.goesTo t ∧ t = { s.dev with store := t.store, metro := t.metro, links := t.links } ∧
        let fault := fun (key : Option Nat) => ∀ l : Link, l = .console ∨ l = .service →
          ∃ p ∈ (t.links.get l).causes, p.cause = .storeFault r slot key .patrol
        (r.paired = true →
          let current := readCopy s.dev.nv r slot (1 - (k.pairAt r slot).nextCopy)
          t.metro = s.dev.metro
          ∧ ((∀ w ∈ current, w.cls ≠ .double) → t.store = moved counted ∧ t.links = s.dev.links)
          ∧ ((∃ w ∈ current, w.cls = .double) → fault (keyOfReads current)
            ∧ t.store = moved (if k.waiting = [] ∧ counted.queue.length < 16 then
                ({ s.dev with store := counted }.admitted [s.dev.ownerRecord r slot] .nothing).store else counted)))
        ∧ (r.paired = false →
          let e := k.indexAt r slot
          let lost : Prop := ∃ w, reads.getLast? = some w ∧ w.cls = .double
          let damaged : Prop := ¬ lost ∧ ∃ w ∈ reads, w.cls = .double
          let found := fun (f : Finding) =>
            t.metro = { s.dev.metro with status := .integrity, findings := s.dev.metro.findings ++ [f] }
              ∧ (s.dev.metro.status ≠ .integrity → ∀ l : Link, l = .console ∨ l = .service →
                ∃ p ∈ (t.links.get l).causes, p.cause = .verifyStatus .integrity s.dev.metro.generation .integrity)
          (¬ lost → ¬ damaged → t.store = moved counted ∧ t.metro = s.dev.metro ∧ t.links = s.dev.links)
          ∧ (lost ∨ damaged → fault (keyOfReads reads))
          ∧ (lost → t.store = moved (counted.setIndex r slot ⟨.absent, 0⟩))
          ∧ (damaged → t.store = moved (if e.cls = .valid then counted.setIndex r slot ⟨.damaged, e.key⟩ else counted))
          ∧ (r ≠ .trail → t.metro = s.dev.metro)
          ∧ (r = .trail → damaged → e.cls = .valid → found ⟨.damagedRecord, e.key, .patrol⟩)
          ∧ (r = .trail → damaged → e.cls ≠ .valid → t.metro = s.dev.metro)
          ∧ (r = .trail → lost → e.cls ≠ .damaged →
            (∀ q, s.dev.metro.boundary < q → q ≤ s.dev.metro.lastSeq → q ≤ s.dev.metro.boundary + 512 → (q - 1) % 512 = slot →
              found ⟨.lostRecord, q, .patrol⟩)
            ∧ ((∀ q, s.dev.metro.boundary < q → q ≤ s.dev.metro.lastSeq → (q - 1) % 512 ≠ slot) → t.metro = s.dev.metro))
          ∧ (r = .trail → lost → e.cls = .damaged → t.metro = s.dev.metro)))

/-- CLOCK_SECOND, RESPONSE_FRAME_SENT, LINE_RETURNS_TO_MARKING, LINK_RATE_CHANGE, FRAME_DISCARDED and FRAME_GAP_TIMEOUT, each with its
whole effect, and what a response formed does to its transmit queue: LINK_RATE_CHANGE takes a rate once the count of service responses
up to its SITE SET's own has run out. A frame is the marker, its length, its body and the check; from HUNTING, bytes before a marker
count for nothing, a length outside 2 to 120 or a wrong check discards the frame, a whole frame gives its body, and bytes that end
before the check leave it partial (sections 11.1, 11.2, 11.3, 11.5 and 11.6). That a break on the service link ends that count, that a
response waits behind a full queue, and that RESPONSE_FRAME_SENT on an empty queue changes nothing, are the model's choices (log
entries 37, 6 and 7). -/
def Obligations.LinkEventsAreTaken : Prop :=
  -- the check, a frame, and what bytes bring to a hunting assembly
  (let check := fun (bytes : List Byte) => bytes.foldl (fun (r : BitVec 16) b =>
      (List.range 8).foldl (fun (x : BitVec 16) _ => if x.msb then (x <<< 1) ^^^ 0x1021#16 else x <<< 1)
        (r ^^^ (b ++ 0#8 : BitVec 16))) 0xFFFF#16
    let sent := fun (bytes : List Byte) => [(check bytes).extractLsb' 8 8, (check bytes).extractLsb' 0 8]
    let quiet := fun (noise : List Byte) => ∀ b ∈ noise, b ≠ 0x7E#8
    let lengthOk := fun (n : Byte) => 2 ≤ n.toNat ∧ n.toNat ≤ 120
    check [0x31#8, 0x32#8, 0x33#8, 0x34#8, 0x35#8, 0x36#8, 0x37#8, 0x38#8, 0x39#8] = 0x29B1#16
    ∧ (∀ body : List Byte, frameBytes body
        = 0x7E#8 :: BitVec.ofNat 8 body.length :: body ++ sent (BitVec.ofNat 8 body.length :: body))
    ∧ (∀ body noise : List Byte, 2 ≤ body.length → body.length ≤ 120 → quiet noise →
        takeBytes .hunting (noise ++ frameBytes body)
          = (.hunting, List.replicate (noise.length + body.length + 3) .nothing ++ [.frame body]))
    ∧ ∀ bytes : List Byte,
      (bringDiscard .hunting bytes = true ↔
        ∃ (noise rest : List Byte) (n : Byte), quiet noise ∧ bytes = noise ++ 0x7E#8 :: n :: rest
          ∧ ((rest = [] ∧ ¬ lengthOk n)
            ∨ ∃ body c : List Byte, rest = body ++ c ∧ lengthOk n ∧ body.length = n.toNat ∧ c.length = 2 ∧ c ≠ sent (n :: body)))
      ∧ (leavePartial .hunting bytes = true ↔
        ∃ noise rest : List Byte, quiet noise ∧ bytes = noise ++ 0x7E#8 :: rest
          ∧ (rest = [] ∨ ∃ (n : Byte) (got : List Byte), rest = n :: got ∧ lengthOk n ∧ got.length < n.toNat + 2)))
  ∧ ∀ (s : State) (l : Link),
    exec .clockSecond s = s.goesTo { s.dev with
      clock := { s.dev.clock with count := min (s.dev.clock.count + 1) 4294967294 } }
    ∧ exec (.lineReturnsToMarking l) s = s.goesTo (s.dev.onLink l fun k => { k with breakHeld := false })
    ∧ (∀ (r : Response) (rest : List Response), s.dev.phase = .running ∨ s.dev.phase = .draining →
      (s.dev.links.get l).tx = r :: rest →
      let d := s.dev.onLink l fun k =>
        { k with tx := (rest ++ k.waiting).take 8, waiting := (rest ++ k.waiting).drop 8 }
      (l ≠ .service → exec (.responseFrameSent l) s = s.goesTo d)
      ∧ (l = .service → exec (.responseFrameSent l) s = s.goesTo { d with
        restartPending := d.restartPending.map (· - 1),
        links := d.links.mapAll fun k => { k with newRates := k.newRates.map fun x => (x.1, x.2 - 1) } }))
    ∧ ((s.dev.links.get l).tx = [] → exec (.responseFrameSent l) s = .next s)
    ∧ (∀ (k : LinkState) (r : Response),
      (k.waiting = [] → k.tx.length < 8 → k.send r = { k with tx := k.tx ++ [r] })
      ∧ (k.waiting ≠ [] ∨ 8 ≤ k.tx.length → k.send r = { k with waiting := k.waiting ++ [r] }))
    ∧ (∀ (b : Baud) (rest : List (Baud × Nat)), s.dev.phase = .running ∨ s.dev.phase = .draining →
      (s.dev.links.get l).newRates = (b, 0) :: rest →
      exec (.linkRateChange l) s = s.goesTo (s.dev.onLink l fun k =>
        { k with rate := b, newRates := rest, assembly := .hunting }))
    ∧ (∀ (b : Baud) (n : Nat) (rest : List (Baud × Nat)), (s.dev.links.get l).newRates = (b, n + 1) :: rest →
      exec (.linkRateChange l) s = .next s)
    ∧ (∀ bytes : List Byte, s.dev.phase = .running → (s.dev.links.get l).breakHeld = false →
      bringDiscard (s.dev.links.get l).assembly bytes = true →
      exec (.frameDiscarded l bytes) s = s.goesTo (s.dev.onLink l fun k =>
        { k with assembly := .hunting, errors := min (k.errors + 1) 65535 }))
    ∧ ∀ bytes : List Byte, s.dev.phase = .running → (s.dev.links.get l).breakHeld = false →
      leavePartial (s.dev.links.get l).assembly bytes = true →
      exec (.frameGapTimeout l bytes) s = s.goesTo (s.dev.onLink l fun k =>
        { k with assembly := .hunting, errors := min (k.errors + 1) 65535 })

/-- BREAK empties its link's partial frame, transmit queue and causes; an admitted operation goes on without its response; a WEIGH
in WAITING, a zero capture and a waiting audit point end without one, the mode and the session standing; a WEIGH in RECORDING goes
on and a held release is not applied; all this also while RESTART drains the store (sections 2.4, 2.5, 9.4, 10.1, 11.2 and 11.6).
That the BRIDGE_STATE of the WEIGH's end is pending after the break, and that a rate whose response the break took waits no more,
are the model's choices (log entries 36 and 37). -/
def Obligations.BreakResetsLink : Prop :=
  ∀ s : State, s.dev.phase = .running ∨ s.dev.phase = .draining →
    (∀ l : Link, l = .console ∨ l = .inventory →
      exec (.lineBreak l) s = s.goesTo (s.dev.onLink l fun k =>
        { k with assembly := .hunting, breakHeld := true, tx := [], waiting := [], causes := [],
                 slot := k.slot.map fun c => { c with silent := true } }))
    ∧ (s.dev.bridge.state = .waiting →
      exec (.lineBreak .lane) s = s.goesTo
        (({ s.dev with bridge := { s.dev.bridge with request := none, state := .standing } } : Dev).onLink .lane fun k =>
          { k with assembly := .hunting, breakHeld := true, tx := [], waiting := [], slot := none, handedOff := none,
                   causes := [⟨.bridgeState .standing s.dev.bridge.count, 0⟩] }))
    ∧ (s.dev.bridge.state ≠ .waiting →
      exec (.lineBreak .lane) s = s.goesTo
        (({ s.dev with bridge := { s.dev.bridge with
            heldRelease := s.dev.bridge.heldRelease && s.dev.bridge.state != .recording } } : Dev).onLink .lane fun k =>
          { k with assembly := .hunting, breakHeld := true, tx := [], waiting := [], slot := none, handedOff := none,
                   causes := [] }))
    ∧ ∃ t : Dev, exec (.lineBreak .service) s = s.goesTo t ∧ t.links.service.tx = [] ∧ t.links.service.waiting = []
      ∧ t.links.service.causes = []
      ∧ t.restartPending = s.dev.restartPending.map (fun _ => 0)
      ∧ (∀ l, (t.links.get l).newRates = (s.dev.links.get l).newRates.map fun x => (x.1, 0))
      ∧ (∀ l, l ≠ .service → { t.links.get l with newRates := [] } = { s.dev.links.get l with newRates := [] })
      ∧ t.links.service.breakHeld = true ∧ t.links.service.assembly = .hunting ∧ t.links.service.handedOff = none
      ∧ t.links.service.slot = (if s.dev.metro.zeroCapture = none then
          s.dev.links.service.slot.map fun c => { c with silent := true } else none)
      ∧ t.metro = { s.dev.metro with zeroCapture := none,
                                     session := s.dev.metro.session.map fun u => { u with waiting := none } }
      ∧ t = { s.dev with metro := t.metro, restartPending := t.restartPending, links := t.links }

/-- A capture applied to a live visit with a number to give and room in the store: FIRST, held or not;
ONE_PASS held, taken with a valid stored tare or degraded for want of one; SECOND; each with its net decided NEGATIVE_NET,
QUEUE_FULL or a ticket, and the return of an OUTTURN truck; a visit whose own first weighing the record overwrites expires, unless a
ticket takes it; another visit whose first weighing the record overwrites expires too, its removal written after that record and
VISIT_EXPIRED raised; a ticket with no number left is refused NUMBERS_EXHAUSTED. The records offered, the answer they carry, the
register, the ticket queue and the numbers (sections 4.5, 4.6, 4.7, 5.4, 5.5, 5.6, 6.1, 6.2, 6.3, 6.4 and 7.1). That the answer of a held or
degraded ONE_PASS capture carries the role FIRST, and that a hold clears the one-pass flag, are the model's readings (log entries 20
and 21); that a loaded weighing that takes no summary leaves its visit with none is its choice (log entry 44), and that the answer
to an expiry of the own visit carries no visit is its reading (log entry 20). -/
def Obligations.VisitCapturesFollowRules : Prop :=
  ∀ (d : Dev) (c : Capture) (v : Visit) (role : Role),
    d.phase = .startWrites ∨ d.phase = .running → d.hasRoom 6 → d.tickets.lastWeighing < 99999999 →
    d.yard.find v.number = some v → c.binding = .visit role v.number false →
    let n := d.tickets.lastWeighing + 1
    let k := d.tickets.lastTicket + 1
    let held := d.store.weighingIn ((n - 1) % 4096)
    -- the other visit, with its first weighing's number, that the record expires, where there is one
    ∀ gone : Option (Visit × Nat),
    (match gone with
      | none => ∀ x ∈ d.yard.visits, x ≠ v → ∀ f, x.first = some f → held ≠ some f.number
      | some (x, m) => held = some m ∧ x.first.map (·.number) = some m ∧ v.first.map (·.number) ≠ some m ∧ x.number ≠ v.number
          ∧ ∃ before after, d.yard.visits = before ++ x :: after ∧ ∀ y ∈ before, y.first.map (·.number) ≠ some m) →
    let left := match gone with | some (x, _) => d.yard.remove x.number | none => d.yard
    let cleared : List RecordSpec := match gone with | some (x, _) => [removal .visits x.slot] | none => []
    let expired : List Cause := match gone with | some (x, m) => [.visitExpired x.number x.identity m] | none => []
    let own : Prop := ∃ f, v.first = some f ∧ held = some f.number
    let taken := d.summaryFor c
    let major := d.metro.site.hold = true ∧ ∃ s, taken = some s ∧ s.indicative = ⟨false, false, false, false⟩ ∧ s.worst = .major
    let verdicts := match taken with | some s => SummaryField.present s.worst s.grossVerdict s.indicative | none => .absent
    let record := fun (p : RecordPurpose) => weighingSpec
      { number := n, identity := c.identity, time := c.time, weight := c.weight, e := c.e, status := c.status, purpose := p,
        generation := c.generation, visit := some v.number }
    let fields := fun (note : TareNote) (r : Role) (after : VisitAfter) (ticket : Option Nat) (net : Option Int) (s : SummaryField) =>
      some (⟨note, some r, some after, some v.number, n, c.weight, ticket, net, s⟩ : WeighFields)
    let side : Side := ⟨c.weight, c.e, c.status, c.generation, n, c.time⟩
    let first := fun (x : Visit) (state : VisitState) (s : Option AxleSummary) =>
      { x with state := state, summary := s, first := some (⟨n, c.weight, c.time, c.e, c.generation, c.status⟩ : FirstWeighing) }
    -- the outcome that leaves a visit in the register: its record (or none), the answer and the causes
    let stays := fun (p : RecordPurpose) (v' : Visit) (written : Bool) (result : WeighResult) (causes : List Cause) =>
      (¬ own → d.applyCapture c =
        { (d.admitted (record p :: (cleared ++ if written then [visitSpec v' none] else []))
            (.weigh result (expired ++ causes) none)) with
          yard := { left.put v' with inUse := some ⟨v.number, false⟩ },
          tickets := { d.tickets with lastWeighing := n } })
      -- the visit whose own first weighing the record overwrites
      ∧ (role = .second → ∀ f, v.first = some f → held = some f.number →
        d.applyCapture c =
          { (d.admitted [record p, removal .visits v.slot]
              (.weigh ⟨.visitExpired, result.fields.map fun x => { x with visitState := none, visit := none }⟩
                [.visitExpired v.number v.identity f.number] none)) with
            yard := d.yard.remove v.number, tickets := { d.tickets with lastWeighing := n } })
    -- the decision of the net, the loaded weighing and the empty one
    let decided := fun (p : RecordPurpose) (v' : Visit) (loaded : Bool) (gross tare : Side) (stored : Bool) (s : SummaryField) =>
      (gross.weight < tare.weight → stays p v' loaded
        ⟨.negativeNet, fields .none role (match v.state with
          | .awaitingFirst => .awaitingFirst | .opened => .opened | .held => .held) none none s⟩ [])
      ∧ (tare.weight ≤ gross.weight → 32 ≤ d.tickets.queue.length → stays p v' loaded
        ⟨.queueFull, fields .none role (match v.state with
          | .awaitingFirst => .awaitingFirst | .opened => .opened | .held => .held) none none s⟩ [])
      ∧ (tare.weight ≤ gross.weight → d.tickets.queue.length < 32 → 99999999 ≤ d.tickets.lastTicket →
        d.applyCapture c = d.weighReport ⟨.numbersExhausted, none⟩)
      ∧ (tare.weight ≤ gross.weight → d.tickets.queue.length < 32 → d.tickets.lastTicket < 99999999 →
        let ticket : Ticket :=
          { number := k, visit := v.number, identity := v.identity, direction := v.direction, commodity := v.commodity.getD 0,
            gross := gross.weight, grossE := gross.e, grossStatus := gross.status, grossGeneration := gross.generation,
            grossNumber := gross.number, grossTime := gross.time, tare := tare.weight, tareE := tare.e,
            tareStatus := tare.status, tareGeneration := tare.generation, tareStored := stored, tareNumber := tare.number,
            tareTime := tare.time, formedByTare := !loaded,
            forTrade := forTrade gross.generation tare.generation gross.status tare.status,
            reasons := tradeReasons gross.generation tare.generation gross.status tare.status,
            heldReleased := v.heldReleased, autoOpened := v.openedBy == .auto, overloadReturn := v.overloadReturn,
            summary := v'.summary }
        let slot := d.tickets.freeQueueSlot
        d.applyCapture c =
          { (d.admitted (record p :: (cleared
                ++ [visitSpec v' (some k), ticketSpec ticket, queueSpec slot k (some ticket), removal .visits v.slot]))
              (.weigh ⟨.ok, fields .none role .leaving (some k) (some (gross.weight - tare.weight)) s⟩ expired (some k))) with
            yard := { left.put v' with inUse := some ⟨v.number, true⟩ },
            tickets := { d.tickets with
              lastWeighing := n, lastTicket := k,
              queue := insertTicket ⟨k, false, some ticket, 0, slot⟩ d.tickets.queue } })
    (role = .first →
      (v.loadedFirst = false → stays .first (first v .opened v.summary) true ⟨.ok, fields .none .first .opened none none .noFields⟩ [])
      ∧ (v.loadedFirst = true → ¬ major →
        stays .first (first v .opened taken) true ⟨.ok, fields .none .first .opened none none verdicts⟩ [])
      ∧ (v.loadedFirst = true → v.direction = .receival → major →
        stays .first (first v .held taken) true ⟨.ok, fields .none .first .held none none verdicts⟩
          [.visitHeld v.number v.identity .major]))
    ∧ (role = .onePass → v.state = .awaitingFirst →
      (v.direction = .receival → major →
        stays .first (first { v with onePass := false } .held taken) true ⟨.ok, fields .none .first .held none none verdicts⟩
          [.visitHeld v.number v.identity .major])
      ∧ (v.direction = .outturn → major →
        stays .onePass { v with summary := taken, overloadReturn := true } true
          ⟨.overloadHold, fields .none .onePass .awaitingFirst none none verdicts⟩ [])
      ∧ (¬ major → ∀ e, d.tickets.findTare c.identity = some e →
        judge e c.time c.generation d.metro.site.tareAge = .valid →
        decided .onePass { v with summary := taken } true side ⟨e.weight, e.e, e.status, e.generation, e.weighing, e.time⟩ true verdicts)
      ∧ (¬ major → ∀ j, d.tickets.judgeId c.identity c.time c.generation d.metro.site.tareAge = j → j ≠ .valid →
        stays .first (first { v with onePass := false, loadedFirst := true } .opened taken) true
          ⟨.ok, fields (.invalid j) .first .opened none none verdicts⟩ []))
    ∧ (role = .second → v.state = .opened → ∀ f, v.first = some f →
      let other : Side := ⟨f.weight, f.e, f.status, f.generation, f.number, f.time⟩
      (v.loadedFirst = true → decided .second v false other side false .noFields)
      ∧ (v.loadedFirst = false → v.direction = .outturn → major →
        stays .second { v with summary := taken, overloadReturn := true } true
          ⟨.overloadHold, fields .none .second .opened none none verdicts⟩ [])
      ∧ (v.loadedFirst = false → ¬ major → decided .second { v with summary := taken } true side other false verdicts))

/-- The other captures: a bound visit that is gone, an identity that auto-open finds or creates, HELD at once where the policy and
its summary hold it, a full register, a tare recorded; with each of them the visit whose first weighing the record overwrites, which
expires, its removal written after that record and VISIT_EXPIRED raised; the copy of a pass's summary
that a capture takes; and the refusals that write nothing and use no number (sections 4.5, 4.6, 5.5, 5.6, 6.1, 6.2 and 6.4). That
the answer of an UNATTACHED record carries no role, and that STORE_BUSY and NUMBERS_EXHAUSTED carry no fields, are the model's
readings (log entries 20 and 19). -/
def Obligations.OtherCapturesFollowRules : Prop :=
  ∀ (d : Dev) (c : Capture),
    let n := d.tickets.lastWeighing + 1
    let record := fun (p : RecordPurpose) (visit : Option Nat) => weighingSpec
      { number := n, identity := c.identity, time := c.time, weight := c.weight, e := c.e, status := c.status, purpose := p,
        generation := c.generation, visit := visit }
    let plain := fun (note : TareNote) (role : Option Role) =>
      some (⟨note, role, none, none, n, c.weight, none, none, .noFields⟩ : WeighFields)
    let held := d.store.weighingIn ((n - 1) % 4096)
    -- the visit, with its first weighing's number, that the record expires, where there is one
    (∀ gone : Option (Visit × Nat),
      (match gone with
        | none => ∀ x ∈ d.yard.visits, ∀ f, x.first = some f → held ≠ some f.number
        | some (x, m) => held = some m ∧ x.first.map (·.number) = some m
            ∧ ∃ before after, d.yard.visits = before ++ x :: after ∧ ∀ y ∈ before, y.first.map (·.number) ≠ some m) →
      let left := match gone with | some (x, _) => d.yard.remove x.number | none => d.yard
      let cleared : List RecordSpec := match gone with | some (x, _) => [removal .visits x.slot] | none => []
      let expired : List Cause := match gone with | some (x, m) => [.visitExpired x.number x.identity m] | none => []
      let lone := fun (status : Status) =>
        d.applyCapture c =
          { (d.admitted (record .unattached none :: cleared) (.weigh ⟨status, plain .none none⟩ expired none)) with
            yard := left, tickets := { d.tickets with lastWeighing := n } }
      d.phase = .startWrites ∨ d.phase = .running → d.hasRoom 3 → d.tickets.lastWeighing < 99999999 →
      (∀ (role : Role) (m : Nat) (mark : Bool), c.binding = .visit role m mark → mark = true ∨ d.yard.find m = none →
        lone .visitVoided)
      ∧ (c.binding = .autoOpen →
        (∀ v, d.yard.findId c.identity = some v → d.yard.find v.number = some v →
          d.applyCapture c = d.applyCapture { c with binding := .visit .first v.number false })
        ∧ (d.yard.findId c.identity = none → 64 ≤ d.yard.visits.length → lone .registerFull)
        ∧ (d.yard.findId c.identity = none → d.yard.visits.length < 64 →
          let loaded := d.metro.site.defaultDirection = .receival
          let major := d.metro.site.hold = true ∧ loaded
            ∧ ∃ s, d.summaryFor c = some s ∧ s.indicative = ⟨false, false, false, false⟩ ∧ s.worst = .major
          let visitIn := fun (state : VisitState) => (
            { number := d.yard.nextNumber, identity := c.identity, direction := d.metro.site.defaultDirection,
              commodity := none, onePass := false, loadedFirst := decide loaded, state := state, openedBy := .auto,
              first := some ⟨n, c.weight, c.time, c.e, c.generation, c.status⟩,
              summary := if loaded then d.summaryFor c else none, heldReleased := false, overloadReturn := false,
              slot := d.yard.freeSlot } : Visit)
          let summary := if loaded then
              match d.summaryFor c with | some s => SummaryField.present s.worst s.grossVerdict s.indicative | none => .absent
            else .noFields
          let made := fun (v : Visit) (state : VisitAfter) (causes : List Cause) =>
            d.applyCapture c =
              { (d.admitted (record .first (some v.number) :: (cleared ++ [visitSpec v none]))
                  (.weigh ⟨.ok, some ⟨.none, some .first, some state, some v.number, n, c.weight, none, none, summary⟩⟩
                    (expired ++ causes) none)) with
                yard := { visits := insertVisit v left.visits, lastNumber := v.number, inUse := some ⟨v.number, false⟩ },
                tickets := { d.tickets with lastWeighing := n } }
          (¬ major → made (visitIn .opened) .opened [])
          ∧ (major → made (visitIn .held) .held [.visitHeld d.yard.nextNumber c.identity .major])))
      ∧ (c.binding = .tare →
        let entry := fun (slot : Nat) => (⟨c.identity, c.weight, c.time, c.e, c.generation, c.status, n, slot⟩ : TareEntry)
        let recorded := fun (slot : Nat) (note : TareNote) =>
          d.applyCapture c =
            { (d.admitted (record .tare none :: (cleared ++ [tareSpec (entry slot)]))
                (.weigh ⟨.ok, plain note (some .tare)⟩ expired none)) with
              yard := left, tickets := { d.tickets with lastWeighing := n, tares := insertTare (entry slot) d.tickets.tares } }
        (∀ e, d.tickets.findTare c.identity = some e → recorded e.slot .replaced)
        ∧ ∀ slot, d.tickets.findTare c.identity = none → d.tickets.tares.length < 256 →
          lowestFree (d.tickets.tares.map (·.slot)) 256 = some slot → recorded slot .created))
    ∧ ((c.binding = .tare → d.tickets.findTare c.identity = none → 256 ≤ d.tickets.tares.length →
        d.applyCapture c = d.weighReport ⟨.tareTableFull, none⟩)
      ∧ ((c.binding = .tare → d.tickets.findTare c.identity ≠ none ∨ d.tickets.tares.length < 256) →
        (d.tickets.lastWeighing = 99999999 → d.applyCapture c = d.weighReport ⟨.numbersExhausted, none⟩)
        ∧ (d.tickets.lastWeighing < 99999999 → d.tickets.lastTicket < 99999999 →
          16 ≤ d.store.queue.length ∨ d.store.waiting ≠ [] → d.applyCapture c = d.weighReport ⟨.storeBusy, none⟩)))
    ∧ (∀ (p : Pass) (s : AxleSummary), d.axle.pass = some p → p.summary = some s →
      (c.pass = some p.openedAt → p.marks.calMode = false →
        let difference := (sumInt (s.groups.map (·.load)) - c.weight).natAbs
        d.summaryFor c = some { s with indicative := { s.indicative with
          generation := s.indicative.generation || decide (s.generation ≠ c.generation),
          inconsistent := s.indicative.inconsistent
            || decide (c.weight < 100 * (difference : Int) ∧ 50 * c.e.kg < difference) } })
      ∧ (c.pass ≠ some p.openedAt ∨ p.marks.calMode = true → d.summaryFor c = none))
    ∧ ((∀ p, d.axle.pass = some p → p.summary = none) → d.summaryFor c = none)

/-! ## Where the commands complete -/

/-- VISIT OPEN, AMEND, VOID and RELEASE and TARE DELETE: the register and the table change at admission, one record is queued, and
the command waits in its slot for the record to be written; each is refused by the first check of its rule that applies. A new
visit's number is held by no live visit, lies in 1 to 65,535, and is one more than the last allocated where that is free (sections
5.1, 5.3 and 6.1). -/
def Obligations.ConsoleChangesAreAdmitted : Prop :=
  (∀ y : Yard, y.visits.length ≤ 64 → y.lastNumber ≤ 65535 →
    (∀ v ∈ y.visits, v.number ≠ y.nextNumber) ∧ 1 ≤ y.nextNumber ∧ y.nextNumber ≤ 65535
      ∧ (y.lastNumber < 65535 → (∀ v ∈ y.visits, v.number ≠ y.lastNumber + 1) → y.nextNumber = y.lastNumber + 1))
  -- the refusals
  ∧ (∀ (s : State) (tag : Byte), s.dev.ready .console →
    let refused := fun (code : Byte) (status : Status) => s.goesTo (s.dev.respond .console code tag status .none)
    (∀ (identity : List Byte) (direction onePass : Byte) (commodity : Half) (who : Identity),
      identityOfBytes identity = some who → directionOfByte direction ≠ none → commodityOfHalf commodity ≠ none →
      flagOfByte onePass ≠ none →
      let answer := exec (.visitOpen tag identity direction commodity onePass) s
      if s.dev.yard.findId who ≠ none then answer = refused 0x02#8 .duplicate
      else if 64 ≤ s.dev.yard.visits.length then answer = refused 0x02#8 .registerFull
      else ¬ s.dev.hasRoom 1 → answer = refused 0x02#8 .storeBusy)
    ∧ (∀ visit commodity : Half, 1 ≤ visit.toNat → 1 ≤ commodity.toNat → commodity.toNat ≤ 999 →
      let amend := exec (.visitAmend tag visit commodity) s
      let void := exec (.visitVoid tag visit) s
      let release := exec (.visitRelease tag visit) s
      let all := fun (status : Status) =>
        amend = refused 0x03#8 status ∧ void = refused 0x04#8 status ∧ release = refused 0x05#8 status
      (s.dev.yard.find visit.toNat = none → all .noVisit)
      ∧ ∀ v, s.dev.yard.find visit.toNat = some v →
        if s.dev.yard.uses visit.toNat = true then all .visitInUse
        else (¬ s.dev.hasRoom 1 → amend = refused 0x03#8 .storeBusy ∧ void = refused 0x04#8 .storeBusy)
          ∧ (if v.state ≠ .held then release = refused 0x05#8 .notHeld
            else ¬ s.dev.hasRoom 1 → release = refused 0x05#8 .storeBusy))
    ∧ ∀ (identity : List Byte) (who : Identity), identityOfBytes identity = some who →
      if s.dev.tickets.findTare who = none then exec (.tareDelete tag identity) s = refused 0x08#8 .noTare
      else ¬ s.dev.hasRoom 1 → exec (.tareDelete tag identity) s = refused 0x08#8 .storeBusy)
  ∧ ∀ (s : State) (tag : Byte), s.dev.ready .console → s.dev.hasRoom 1 →
    (∀ (identity : List Byte) (direction onePass : Byte) (commodity : Half) (who : Identity) (dir : Direction)
        (com : Option Nat) (one : Bool),
      identityOfBytes identity = some who → directionOfByte direction = some dir → commodityOfHalf commodity = some com →
      flagOfByte onePass = some one → (∀ v ∈ s.dev.yard.visits, v.identity ≠ who) → s.dev.yard.visits.length < 64 →
      let v : Visit :=
        { number := s.dev.yard.nextNumber, identity := who, direction := dir, commodity := com, onePass := one,
          loadedFirst := dir == .receival, state := .awaitingFirst, openedBy := .console, first := none, summary := none,
          heldReleased := false, overloadReturn := false, slot := s.dev.yard.freeSlot }
      exec (.visitOpen tag identity direction commodity onePass) s = s.goesTo
        { ((s.dev.executing .console 0x02#8 tag).admitted [visitSpec v none] (.answer .console .ok (.number v.number))) with
          yard := { s.dev.yard with visits := insertVisit v s.dev.yard.visits, lastNumber := v.number } })
    ∧ (∀ (visit : Half) (v : Visit), 1 ≤ visit.toNat → s.dev.yard.find visit.toNat = some v →
      s.dev.yard.uses visit.toNat = false →
      (∀ commodity : Half, 1 ≤ commodity.toNat → commodity.toNat ≤ 999 →
        let v' := { v with commodity := some commodity.toNat }
        exec (.visitAmend tag visit commodity) s = s.goesTo
          { ((s.dev.executing .console 0x03#8 tag).admitted [visitSpec v' none] (.answer .console .ok .none)) with
            yard := s.dev.yard.put v' })
      ∧ exec (.visitVoid tag visit) s = s.goesTo
          { ((s.dev.executing .console 0x04#8 tag).admitted [removal .visits v.slot] (.answer .console .ok .none)) with
            yard := s.dev.yard.remove v.number,
            bridge := { s.dev.bridge with request := s.dev.bridge.request.map fun r => r.markGone v.number } }
      ∧ (v.state = .held →
        let v' := { v with state := .opened, heldReleased := true }
        exec (.visitRelease tag visit) s = s.goesTo
          { ((s.dev.executing .console 0x05#8 tag).admitted [visitSpec v' none] (.answer .console .ok .none)) with
            yard := s.dev.yard.put v' }))
    ∧ ∀ (identity : List Byte) (who : Identity) (e : TareEntry), identityOfBytes identity = some who →
      s.dev.tickets.findTare who = some e →
      exec (.tareDelete tag identity) s = s.goesTo
        { ((s.dev.executing .console 0x08#8 tag).admitted [removal .tares e.slot] (.answer .console .ok .none)) with
          tickets := { s.dev.tickets with tares := s.dev.tickets.tares.filter fun x => x.slot != e.slot } }

/-- TICKET TAKE answers with the first POSTED entry, its group records left out of part 0 with its summary's figures beside it, and
raises its take count; for parts 1 to 4 with the group records of that part, six to a part in order, and the ticket number, the take
count unchanged, or RANGE at or above the number of parts; or EMPTY with the count of PENDING entries; TICKET CLEAR takes its entry
from the queue at admission, and is refused by the first check of its rule that applies (sections 7.2, 7.1 and 11.3). That TICKET
TAKE for a part above 0 is EMPTY too with no POSTED entry, and that an entry with the DAMAGED mark has one part, are the model's
choices (log entries 88 and 55). -/
def Obligations.TicketsAreTakenAndCleared : Prop :=
  (∀ (s : State) (tag : Byte), s.dev.ready .inventory →
    let refused := fun (status : Status) => s.goesTo (s.dev.respond .inventory 0x42#8 tag status .none)
    (∀ part : Byte, part.toNat ≤ 4 → (∀ e ∈ s.dev.tickets.queue, e.posted = false) →
      exec (.ticketTake tag part) s
        = s.goesTo (s.dev.respond .inventory 0x41#8 tag .empty (.number s.dev.tickets.queue.length)))
    ∧ ∀ n : Word, 1 ≤ n.toNat → n.toNat ≤ 99999999 →
      ((∀ e ∈ s.dev.tickets.queue, e.number ≠ n.toNat) → exec (.ticketClear tag n) s = refused .notFound)
      ∧ ∀ e, s.dev.tickets.queue.find? (fun x => x.number == n.toNat) = some e →
        if e.posted = false then exec (.ticketClear tag n) s = refused .notPosted
        else ¬ s.dev.hasRoom 1 → exec (.ticketClear tag n) s = refused .storeBusy)
  ∧ ∀ (s : State) (tag : Byte) (e : QueueTicket), s.dev.ready .inventory →
    (s.dev.tickets.queue.find? (·.posted) = some e →
      exec (.ticketTake tag 0#8) s = s.goesTo
        { (s.dev.respond .inventory 0x41#8 tag (if e.ticket.isSome then .ok else .damaged)
            (.take e.number (min (e.takes + 1) 255) (s.dev.tickets.queue.filter (·.posted)).length
              (s.dev.tickets.queue.filter fun x => !x.posted).length (e.ticket.map (·.withoutGroups))
              (e.summary.map (·.figures)) (partCount e.summary) (groupCount e.summary))) with
          tickets := { s.dev.tickets with
            queue := s.dev.tickets.queue.map fun x =>
              if x.number = e.number then { x with takes := min (x.takes + 1) 255 } else x } }
      ∧ ∀ part : Byte, 1 ≤ part.toNat → part.toNat ≤ 4 →
        let groups := match e.ticket.bind (·.summary) with | some a => a.reports | none => []
        exec (.ticketTake tag part) s = s.goesTo
          (if 6 * (part.toNat - 1) < groups.length then
            s.dev.respond .inventory 0x41#8 tag .ok
              (.groups part.toNat e.number ((groups.drop (6 * (part.toNat - 1))).take 6))
          else s.dev.respond .inventory 0x41#8 tag .range .none))
    ∧ ∀ n : Word, 1 ≤ n.toNat → n.toNat ≤ 99999999 → s.dev.hasRoom 1 →
      s.dev.tickets.queue.find? (fun x => x.number == n.toNat) = some e → e.posted = true →
      exec (.ticketClear tag n) s = s.goesTo
        { ((s.dev.executing .inventory 0x42#8 tag).admitted [removal .queue e.slot] .ticketClear) with
          tickets := { s.dev.tickets with queue := s.dev.tickets.queue.filter fun x => x.number != e.number } }

/-- VISIT READ, VISIT LIST, TARE READ, BRIDGE READ, PASS READ, CELL READ, its summary, STORE COUNTS and STATUS are answered at once
and change nothing but what their rules clear: BRIDGE READ the change marks, STORE COUNTS its two counts, STATUS the pending cause
of highest priority, which it answers with the causes left, the error count and the clock, or NONE with none pending. VISIT READ, by
number or by identity, gives part 0 of the visit or the group records of parts 1 to 4, six to a part in order, RANGE at or above the
number of parts, and NO_VISIT where no live visit is so named; TARE READ gives the entry with its judgment and its age, with no age
and the judgment TIME_UNSET, or GENERATION, while the clock is invalid, and NO_TARE where there is no entry (sections 1.5, 2.5, 3.8,
5.3, 6.1, 7.3, 8.7, 11.3 and 11.4). -/
def Obligations.ReadsAnswerAtOnce : Prop :=
  (∀ (s : State) (l : Link) (tag : Byte), s.dev.ready l →
    (∀ (p : Pending) (rest : List Pending), (s.dev.links.get l).causes = p :: rest →
      exec (.status l tag) s = s.goesTo (s.dev.onLink l fun k =>
        ({ k with causes := rest } : LinkState).send ⟨0x01#8, tag, .ok,
            .status (some p) rest.length k.errors s.dev.clock.count s.dev.clock.valid⟩))
    ∧ ((s.dev.links.get l).causes = [] →
      exec (.status l tag) s = s.goesTo (s.dev.onLink l fun k =>
        k.send ⟨0x01#8, tag, .none, .status none 0 k.errors s.dev.clock.count s.dev.clock.valid⟩)))
  ∧ ∀ (s : State) (tag : Byte),
    (s.dev.ready .console →
      (∀ (key : VisitKey) (found : Option Visit),
        (∃ n : Half, key = .number n ∧ 1 ≤ n.toNat ∧ found = s.dev.yard.visits.find? (·.number == n.toNat))
          ∨ (∃ (identity : List Byte) (who : Identity), key = .identity identity ∧ identityOfBytes identity = some who
            ∧ found = s.dev.yard.visits.find? (·.identity == who)) →
        let answers := fun (part : Byte) (status : Status) (body : Body) =>
          exec (.visitRead tag part key) s = s.goesTo (s.dev.respond .console 0x06#8 tag status body)
        (found = none → ∀ part : Byte, part.toNat ≤ 4 → answers part .noVisit .none)
        ∧ ∀ v : Visit, found = some v →
          let groups := match v.summary with | some a => a.reports | none => []
          answers 0#8 .ok (.visit v.withoutGroups (v.summary.map (·.figures)) (s.dev.yard.uses v.number)
            (s.dev.yard.leaving v.number) (s.dev.requestOn v.number) (1 + (groups.length + 5) / 6) groups.length)
          ∧ ∀ part : Byte, 1 ≤ part.toNat → part.toNat ≤ 4 →
            if 6 * (part.toNat - 1) < groups.length then
              answers part .ok (.groups part.toNat v.number ((groups.drop (6 * (part.toNat - 1))).take 6))
            else answers part .range .none)
      ∧ ∀ (identity : List Byte) (who : Identity), identityOfBytes identity = some who →
        let answers := fun (status : Status) (body : Body) =>
          exec (.tareRead tag identity) s = s.goesTo (s.dev.respond .console 0x07#8 tag status body)
        (s.dev.tickets.findTare who = none → answers .noTare .none)
        ∧ ∀ e, s.dev.tickets.findTare who = some e →
          if s.dev.clock.valid = true then
            answers .ok (.tare e (judge e s.dev.clock.count s.dev.metro.generation s.dev.metro.site.tareAge)
              (if e.time ≤ s.dev.clock.count then some (s.dev.clock.count - e.time) else none))
          else answers .ok (.tare e (if e.generation ≠ s.dev.metro.generation then .generation else .timeUnset) none))
    ∧ (s.dev.ready .inventory → ∀ start : Half,
      let limit := if s.dev.metro.site.listLimit = 0 then 2 else s.dev.metro.site.listLimit
      let from' := s.dev.yard.visits.filter fun v => decide (max 1 start.toNat ≤ v.number)
      exec (.visitList tag start) s = s.goesTo (s.dev.respond .inventory 0x43#8 tag .ok
        (.visitList ((from'.take limit).map s.dev.yard.brief) s.dev.yard.visits.length
          (match (from'.take limit).getLast? with
            | some v => if from'.length ≤ limit then 0 else v.number + 1
            | none => 0))))
    ∧ (s.dev.ready .lane →
      exec (.bridgeRead tag) s = s.goesTo
        { (s.dev.respond .lane 0x22#8 tag .ok (.bridge s.dev.bridgeReport)) with
          bridge := { s.dev.bridge with entryBeam := { s.dev.bridge.entryBeam with changed := false },
                                        exitBeam := { s.dev.bridge.exitBeam with changed := false } } }
      ∧ (∀ first : Byte, first.toNat ≤ 24 → s.dev.axle.pass = none →
        exec (.passRead tag first) s = s.goesTo (s.dev.respond .lane 0x24#8 tag .ok .passIdle))
      ∧ ∀ (first : Byte) (p : Pass), first.toNat ≤ 24 → s.dev.axle.pass = some p →
        exec (.passRead tag first) s
          = s.goesTo (s.dev.respond .lane 0x24#8 tag .ok (.pass p.header (p.reportFrom first.toNat))))
    ∧ (s.dev.ready .service →
      (∀ port : Byte, port.toNat ≤ 17 →
        exec (.cellRead tag port) s
          = s.goesTo (s.dev.respond .service 0x6F#8 tag .ok (.cell (s.dev.cellReport port.toNat))))
      ∧ exec (.cellReadSummary tag) s = s.goesTo (s.dev.respond .service 0x6F#8 tag .ok (.cells s.dev.cellSummary))
      ∧ exec (.storeCounts tag 0#8) s
          = s.goesTo (s.dev.respond .service 0x70#8 tag .ok (.store s.dev.store.condition))
      ∧ exec (.storeCounts tag 1#8) s = s.goesTo
          { (s.dev.respond .service 0x70#8 tag .ok (.store s.dev.store.condition)) with
            store := { s.dev.store with corrected := 0, uncorrectable := 0 } })

/-- RECORD READ, WEIGHING READ and TRAIL READ by what the index and the words give: a VALID record whose words are sound is answered
with, RECORD READ part by part; a DAMAGED one, found so now or before, with its number alone; a slot that is empty, INTERRUPTED, GIVEN
to a record not yet written or held by another number, and one whose completion word is found DOUBLE, is NOT_FOUND. Of the words so
read each CORRECTED one is counted and scrubbed where the queue has a space, each DOUBLE one is counted and raises STORE_FAULT with the
source READ, and the index marks the record DAMAGED, or the slot ABSENT where it is the completion word; in the trail a record newly
found DAMAGED, or lost in the slot of an unarchived number, is a finding, and the verification status becomes INTEGRITY. Nothing else
changes (sections 6.2, 6.3, 7.4, 8.1, 10.4, 10.6 and 11.3). That a DAMAGED slot's words are read too, and that a sound record which its
layout does not allow is DAMAGED and not so marked, are the model's readings (log entries 27 and 28); that an inner DOUBLE word makes a
record DAMAGED whatever its first word holds is its choice (log entry 70). -/
def Obligations.ArchiveReadsAnswer : Prop :=
  ∀ (s : State) (tag : Byte) (n : Word), s.dev.store.corrected ≤ 65535 → s.dev.store.uncorrectable ≤ 65535 →
    let k := s.dev.store
    -- the words of a slot, and what they show
    let words := fun (r : Region) (slot : Nat) => readCopy s.dev.nv r slot 0
    let lost := fun (r : Region) (slot : Nat) => (words r slot).getLast?.any (·.cls == .double)
    let broken := fun (r : Region) (slot : Nat) => (words r slot).any (·.cls == .double)
    -- the controller once they have been read
    let read := fun (r : Region) (slot : Nat) =>
      let corrected := (words r slot).filter (·.wasCorrected)
      let double := (words r slot).filter (·.cls == .double)
      let counted : Store :=
        { k with
          corrected := min (k.corrected + corrected.length) 65535,
          uncorrectable := min (k.uncorrectable + double.length) 65535,
          queue := k.queue ++ if k.waiting = [] then (corrected.map fun w => .scrub w.address).take (16 - k.queue.length) else [] }
      let fault := Cause.storeFault r slot (keyOfReads (words r slot)) .read
      ({ (double.foldl (fun a _ => (a.raise .console fault).raise .service fault) s.dev) with
        store := if lost r slot then counted.setIndex r slot ⟨.absent, 0⟩
          else if broken r slot then counted.setIndex r slot ⟨.damaged, n.toNat⟩ else counted } : Dev)
    -- the class of the record of the number wanted, ABSENT where the slot holds another
    let cls := fun (r : Region) (slot : Nat) => if (k.indexAt r slot).key = n.toNat then (k.indexAt r slot).cls else .absent
    (1 ≤ n.toNat → n.toNat ≤ 99999999 →
      (∀ (l : Link) (part : Byte), (l = .console ∨ l = .inventory) → s.dev.ready l → part.toNat ≤ 4 →
        let slot := (n.toNat - 1) % 2048
        let ends := fun (d : Dev) (status : Status) (body : Body) =>
          exec (.recordRead l tag part n) s = s.goesTo (d.respond l 0x0B#8 tag status body)
        match cls .tickets slot with
        | .valid =>
          if lost .tickets slot then ends (read .tickets slot) .notFound .none
          else if broken .tickets slot then ends (read .tickets slot) .damaged (.number n.toNat)
          else match ticketOfWords n.toNat (bodyOfReads (words .tickets slot)) with
            | none => ends (read .tickets slot) .damaged (.number n.toNat)
            | some t =>
              let groups := match t.summary with | some a => a.reports | none => []
              if part = 0#8 then ends (read .tickets slot) .ok
                (.ticket t.withoutGroups (t.summary.map (·.figures)) (1 + (groups.length + 5) / 6) groups.length)
              else if 6 * (part.toNat - 1) < groups.length then ends (read .tickets slot) .ok
                (.groups part.toNat n.toNat ((groups.drop (6 * (part.toNat - 1))).take 6))
              else ends (read .tickets slot) .range .none
        | .damaged =>
          if lost .tickets slot then ends (read .tickets slot) .notFound .none
          else ends (read .tickets slot) .damaged (.number n.toNat)
        | _ => ends s.dev .notFound .none)
      ∧ (s.dev.ready .console →
        let slot := (n.toNat - 1) % 4096
        let ends := fun (d : Dev) (status : Status) (body : Body) =>
          exec (.weighingRead tag n) s = s.goesTo (d.respond .console 0x0C#8 tag status body)
        match cls .weighings slot with
        | .valid =>
          if lost .weighings slot then ends (read .weighings slot) .notFound .none
          else if broken .weighings slot then ends (read .weighings slot) .damaged (.number n.toNat)
          else match weighingOfWords n.toNat (bodyOfReads (words .weighings slot)) with
            | none => ends (read .weighings slot) .damaged (.number n.toNat)
            | some w => ends (read .weighings slot) .ok (.weighing w)
        | .damaged =>
          if lost .weighings slot then ends (read .weighings slot) .notFound .none
          else ends (read .weighings slot) .damaged (.number n.toNat)
        | _ => ends s.dev .notFound .none))
    ∧ (s.dev.ready .service →
      let m := s.dev.metro
      let slot := (n.toNat - 1) % 512
      let ends := fun (d : Dev) (status : Status) (record : Option TrailRecord) (key : Option Nat) =>
        exec (.trailRead tag n) s = s.goesTo (d.respond .service 0x6C#8 tag status
          (.trail record key (record.isSome && decide (n.toNat ≤ m.boundary)) m.lastSeq m.boundary (m.lastSeq - m.boundary)
            (512 - (m.lastSeq - m.boundary))))
      -- a finding: the status INTEGRITY, VERIFY_STATUS where it was not, and an integrity write due
      let finding := fun (f : Finding) =>
        let d := read .trail slot
        let cause := Cause.verifyStatus .integrity m.generation .integrity
        ({ (if m.status = .integrity then d else (d.raise .console cause).raise .service cause) with
          metro := { m with status := .integrity, findings := m.findings ++ [f] } } : Dev)
      if n.toNat = 0 ∨ m.lastSeq < n.toNat then ends s.dev .notFound none none
      else match cls .trail slot with
        | .valid =>
          if lost .trail slot then
            (∀ q, m.boundary < q → q ≤ m.lastSeq → q ≤ m.boundary + 512 → (q - 1) % 512 = slot →
              ends (finding ⟨.lostRecord, q, .read⟩) .notFound none none)
            ∧ ((∀ q, m.boundary < q → q ≤ m.lastSeq → (q - 1) % 512 ≠ slot) → ends (read .trail slot) .notFound none none)
          else if broken .trail slot then ends (finding ⟨.damagedRecord, n.toNat, .read⟩) .damaged none (some n.toNat)
          else match trailOfWords n.toNat (bodyOfReads (words .trail slot)) with
            | none => ends (read .trail slot) .damaged none (some n.toNat)
            | some r => ends (read .trail slot) .ok (some r) (some n.toNat)
        | .damaged =>
          if lost .trail slot then ends (read .trail slot) .notFound none none
          else ends (read .trail slot) .damaged none (some n.toNat)
        | _ => ends s.dev .notFound none none)

/-- WEIGH accepted in STANDING waits with its binding, its wait limit and the slot IDLE, or is refused by the first check of its
table that applies, and then by its binding; the binding is judged by the live visit of the identity, by auto-open, or is the
stored-tare table's (sections 2.4, 5.4 and 6.1). -/
def Obligations.WeighIsAcceptedAndBound : Prop :=
  (∀ (s : State) (tag purpose : Byte) (identity : List Byte) (p : Purpose) (who : Identity) (b : Binding),
    s.dev.ready .lane → purposeOfByte purpose = some p → identityOfBytes identity = some who →
    s.dev.metro.working = none → s.dev.metro.session = none → s.dev.clock.valid = true →
    s.dev.weighing.last.invalid.unmapped = false → s.dev.weighing.last.invalid.unset = false →
    s.dev.bridge.state = .standing → s.dev.bind p who = .ok b →
    exec (.weigh tag purpose identity) s = s.goesTo
      ((({ s.dev with bridge := { s.dev.bridge with
            state := .waiting,
            request := some ⟨who, p, b, none, 0,
              if s.dev.metro.site.waitTimer = 0 then none else some (100 * s.dev.metro.site.waitTimer)⟩ } } : Dev).onLink .lane
          fun k => { k with handedOff := some (0x21#8, tag) }).raise .lane (.bridgeState .waiting s.dev.bridge.count)))
  ∧ (∀ (s : State) (tag purpose : Byte) (identity : List Byte) (p : Purpose) (who : Identity),
    s.dev.ready .lane → purposeOfByte purpose = some p → identityOfBytes identity = some who →
    let x := s.dev.weighing.last.invalid
    let refused := fun (status : Status) =>
      exec (.weigh tag purpose identity) s = s.goesTo (s.dev.respond .lane 0x21#8 tag status .none)
    if s.dev.metro.working ≠ none then refused .calMode
    else if s.dev.metro.session ≠ none then refused .audit
    else if s.dev.clock.valid = false then refused .timeUnset
    else if x.unmapped = true ∨ x.unset = true then refused .cellFault
    else if s.dev.bridge.state ≠ .standing then refused .notStanding
    else ∀ status, s.dev.bind p who = .error status → refused status)
  ∧ ∀ (d : Dev) (who : Identity),
    (∀ v, d.yard.findId who = some v →
      (v.state = .held → d.bind .weighNext who = .error .held)
      ∧ (v.state = .awaitingFirst → v.onePass = false → d.bind .weighNext who = .ok (.visit .first v.number false))
      ∧ (v.state = .awaitingFirst → v.onePass = true → v.commodity ≠ none →
        d.bind .weighNext who = .ok (.visit .onePass v.number false))
      ∧ (v.state = .opened → v.commodity ≠ none → d.bind .weighNext who = .ok (.visit .second v.number false))
      ∧ (v.commodity = none → v.state = .opened ∨ (v.state = .awaitingFirst ∧ v.onePass = true) →
        d.bind .weighNext who = .error .noCommodity))
    ∧ (d.yard.findId who = none →
      d.bind .weighNext who = if d.metro.site.autoOpen then .ok .autoOpen else .error .noVisit)
    ∧ d.bind .tareRecord who =
      (if d.tickets.findTare who = none ∧ 256 ≤ d.tickets.tares.length then .error .tareTableFull else .ok .tare)

/-- BRIDGE RELEASE outside RECORDING empties the bridge, ends a WEIGH in WAITING with RELEASED before its own answer, aborts an
OPEN pass or discards the last one, and empties the detection queue; in RECORDING it is held with the slot EXECUTING (sections
2.3, 2.5 and 3.7). That a release which changes the state sets the tracking count to 0 at once is the model's choice (log entry
13). -/
def Obligations.BridgeReleaseEmptiesBridge : Prop :=
  ∀ (s : State) (tag : Byte), s.dev.ready .lane →
    (s.dev.bridge.state = .recording →
      exec (.bridgeRelease tag) s = s.goesTo
        { (s.dev.executing .lane 0x23#8 tag) with bridge := { s.dev.bridge with heldRelease := true } })
    ∧ (s.dev.bridge.state ≠ .recording →
      ∃ t : Dev, exec (.bridgeRelease tag) s = s.goesTo t
        ∧ t.bridge = { s.dev.bridge with
            state := .empty, count := some 0, entryEnd := .pair, leavingSeen := false, heldRelease := false,
            request := if s.dev.bridge.state = .waiting then none else s.dev.bridge.request }
        ∧ t.axle.queue = [] ∧ t.axle.ms = s.dev.axle.ms
        ∧ (∀ p, s.dev.axle.pass = some p → p.state = .opened →
          t.axle.pass = some { p with state := .aborted, reason := some .released })
        ∧ ((∀ p, s.dev.axle.pass = some p → p.state ≠ .opened) → t.axle.pass = none)
        ∧ t.links.lane.slot = none
        ∧ t.answered s.dev .lane
            ((if s.dev.bridge.state = .waiting then
                  match s.dev.links.lane.handedOff with
                  | some x => [⟨x.1, x.2, .released, .none⟩]
                  | none => []
                else [])
            ++ [⟨0x23#8, tag, .ok, .none⟩])
        ∧ t.weighing = { s.dev.weighing with
            tracking := if s.dev.bridge.state = .empty then s.dev.weighing.tracking else 0 }
        ∧ t = { s.dev with bridge := t.bridge, axle := t.axle, weighing := t.weighing,
                           links := { s.dev.links with lane := t.links.lane } })

/-- CAL ENTER, CAL SET, MAP SET and CAL EXIT DISCARD: the working copy begins as the current set, takes an edit with its differs
mark, is discarded with nothing kept; ports enter and leave use with the set in force, and a change of the cell arithmetic makes the
histories' emptying due. Each identifier's value is taken on its range alone, is read back, and leaves every other parameter; CAL
ENTER and MAP SET are refused by the first check of their rules that applies, and the commands of the mode NOT_CAL_MODE outside it
(sections 9.1 to 9.3, 9.6, 1.1, 1.2 and A.4). That MAP SET of a position not required makes the emptying due is the model's reading
(log entry 31); the codes 1 and 2 of zero tracking, and the port in the answer of a MAP SET that changes nothing, are its choices
(log entries 4 and 79). -/
def Obligations.WorkingCopyIsEdited : Prop :=
  -- the parameters by their identifiers
  (∀ (p : ParamSet) (id : Nat) (v : Int), 1 ≤ id → id ≤ 71 →
    (p.set? id v ≠ none ↔
      (id = 1 ∧ 1 ≤ v ∧ v ≤ 200000) ∨ (id = 2 ∧ v ∈ [5, 10, 20, 50, 100]) ∨ (id = 3 ∧ 1 ≤ v ∧ v ≤ 4)
        ∨ (id = 4 ∧ v ∈ [2, 4]) ∨ (id = 5 ∧ v ∈ [4, 8, 16, 32]) ∨ (id = 6 ∧ 50 ≤ v ∧ v ≤ 200) ∨ (id = 7 ∧ v ∈ [1, 2])
        ∨ (8 ≤ id ∧ id % 4 = 1 ∧ -8388608 ≤ v ∧ v ≤ 8388607) ∨ (8 ≤ id ∧ id % 4 = 2 ∧ 1 ≤ v ∧ v ≤ 16777215)
        ∨ (8 ≤ id ∧ id % 4 = 3 ∧ 58982 ≤ v ∧ v ≤ 72090))
    ∧ ∀ q, p.set? id v = some q → q.get id = some v ∧ ∀ j, 1 ≤ j → j ≤ 71 → j ≠ id → q.get j = p.get j)
  ∧ (∀ p : ParamSet,
    p.get 1 = some (p.max : Int) ∧ p.get 2 = some (p.e.kg : Int) ∧ p.get 3 = some (p.decks : Int)
    ∧ p.get 4 = some (if p.fourCells then 4 else 2) ∧ p.get 5 = some (p.window.size : Int)
    ∧ p.get 6 = some (p.stability : Int) ∧ p.get 7 = some (if p.tracking then 1 else 2)
    ∧ ∀ deck corner : Nat, 1 ≤ deck → deck ≤ 4 → 1 ≤ corner → corner ≤ 4 →
      let i := 4 * (deck - 1) + (corner - 1)
      p.get (8 + 4 * i) = some (match (p.at i).map with | some port => (port : Int) | none => -1)
      ∧ p.get (8 + 4 * i + 1) = (p.at i).offset ∧ p.get (8 + 4 * i + 2) = (p.at i).gain.map (fun (g : Nat) => (g : Int))
      ∧ p.get (8 + 4 * i + 3) = (p.at i).corner.map (fun (k : Nat) => (k : Int)))
  -- the refusals
  ∧ (∀ (s : State) (tag : Byte), s.dev.ready .service →
    let refused := fun (code : Byte) (status : Status) => s.goesTo (s.dev.respond .service code tag status .none)
    (if s.dev.metro.working ≠ none then exec (.calEnter tag) s = refused 0x61#8 .calMode
      else if s.dev.metro.switchClosed = false then exec (.calEnter tag) s = refused 0x61#8 .switchOpen
      else if s.dev.bridge.request ≠ none then exec (.calEnter tag) s = refused 0x61#8 .bridgeBusy
      else s.dev.metro.session ≠ none → exec (.calEnter tag) s = refused 0x61#8 .audit)
    ∧ (s.dev.metro.working = none →
      (∀ (id : Byte) (value : Word), 1 ≤ id.toNat → id.toNat ≤ 71 →
        exec (.calSet tag id value) s = refused 0x62#8 .notCalMode)
      ∧ exec (.calExitDiscard tag) s = refused 0x67#8 .notCalMode)
    ∧ ∀ (deck corner port : Byte) (target : Option Nat), 1 ≤ deck.toNat → deck.toNat ≤ 4 → 1 ≤ corner.toNat →
      corner.toNat ≤ 4 → (port.toNat ≤ 17 ∧ target = some port.toNat) ∨ (port = 0xFF#8 ∧ target = none) →
      let i := 4 * (deck.toNat - 1) + (corner.toNat - 1)
      (s.dev.metro.working = none → exec (.mapSet tag deck corner port) s = refused 0x63#8 .notCalMode)
      ∧ ∀ w : ParamSet, s.dev.metro.working = some w →
        ((∃ j < 16, j ≠ i ∧ target ≠ none ∧ (w.at j).map = target) →
          exec (.mapSet tag deck corner port) s = refused 0x63#8 .duplicatePort)
        ∧ ((∀ j < 16, j ≠ i → target ≠ none → (w.at j).map ≠ target) → (w.at i).map = target →
          exec (.mapSet tag deck corner port) s = s.goesTo (s.dev.respond .service 0x63#8 tag .ok (.mapSet target))))
  ∧ ∀ (s : State) (tag : Byte), s.dev.ready .service →
    (s.dev.metro.working = none → s.dev.metro.switchClosed = true → s.dev.bridge.request = none →
      s.dev.metro.session = none →
      ∃ t : Dev, exec (.calEnter tag) s = s.goesTo t
        ∧ t.metro = { s.dev.metro with working := some s.dev.metro.current, differs := false }
        ∧ t.weighing = { s.dev.weighing with tracking := 0 }
        ∧ t.axle.pass = (s.dev.axle.pass.map fun p =>
            if p.state = .opened then { p with marks := { p.marks with calMode := true } } else p)
        ∧ t = { (s.dev.respond .service 0x61#8 tag .ok (.calEnter s.dev.metro.generation s.dev.metro.status)) with
            metro := t.metro, weighing := t.weighing, axle := { s.dev.axle with pass := t.axle.pass } })
    ∧ ∀ w : ParamSet, s.dev.metro.working = some w →
      let follows := fun (new : ParamSet) (t : Dev) =>
        (∀ p : Fin 18, t.port p.val =
          if w.inUse p.val = new.inUse p.val then s.dev.port p.val
          else if new.inUse p.val then { s.dev.port p.val with state := .suspect, fails := 1, goods := 0 }
          else { s.dev.port p.val with
            state := .absent, fails := 0, goods := 0,
            latest := (s.dev.port p.val).latest.map fun l => { l with saturated := false } })
      (∀ (id : Byte) (value : Word) (new : ParamSet), 1 ≤ id.toNat → id.toNat ≤ 71 →
        w.set? id.toNat value.toInt = some new →
        ∃ t : Dev, exec (.calSet tag id value) s = s.goesTo t ∧ follows new t
          ∧ t.metro = { s.dev.metro with
              working := some new, differs := decide (new.arithmetic ≠ s.dev.metro.current.arithmetic) }
          ∧ t.weighing = { s.dev.weighing with
              emptyDue := s.dev.weighing.emptyDue || decide (w.arithmetic ≠ new.arithmetic) }
          ∧ t.answered s.dev .service [⟨0x62#8, tag, .ok, .calSet (w.get id.toNat) value.toInt⟩]
          ∧ t = { s.dev with metro := t.metro, weighing := t.weighing, cells := t.cells, links := t.links })
      ∧ (∀ (deck corner port : Byte) (target : Option Nat), 1 ≤ deck.toNat → deck.toNat ≤ 4 → 1 ≤ corner.toNat →
        corner.toNat ≤ 4 → (port.toNat ≤ 17 ∧ target = some port.toNat) ∨ (port = 0xFF#8 ∧ target = none) →
        let i := 4 * (deck.toNat - 1) + (corner.toNat - 1)
        (w.at i).map ≠ target → (∀ j < 16, j ≠ i → target ≠ none → (w.at j).map ≠ target) →
        ∃ t : Dev, exec (.mapSet tag deck corner port) s = s.goesTo t
          ∧ t.metro.working = some (w.setAt i ⟨target, none, none, none⟩)
          ∧ follows (w.setAt i ⟨target, none, none, none⟩) t ∧ t.weighing.emptyDue = true
          ∧ t.answered s.dev .service [⟨0x63#8, tag, .ok, .mapSet (w.at i).map⟩]
          ∧ t = { s.dev with metro := { s.dev.metro with working := t.metro.working, differs := t.metro.differs },
                             weighing := { s.dev.weighing with emptyDue := true }, cells := t.cells, links := t.links })
      ∧ ∃ t : Dev, exec (.calExitDiscard tag) s = s.goesTo t ∧ follows s.dev.metro.current t
        ∧ t.metro = { s.dev.metro with working := none, differs := false }
        ∧ t.weighing = { s.dev.weighing with emptyDue := s.dev.weighing.emptyDue || s.dev.metro.differs }
        ∧ t.answered s.dev .service [⟨0x67#8, tag, .ok, .none⟩]
        ∧ t = { s.dev with metro := t.metro, weighing := t.weighing, cells := t.cells, links := t.links }

/-- CAL SPAN and CAL DECK on a stable, valid STANDING load within the adjustment range: each required gain, or each corner factor of
the deck, is scaled by the reference over the filtered gross, and nothing else of the working copy changes; the differs mark follows
it, the histories are to be emptied at the next sample, the answer gives the ratio and the values, and no port and nothing else
changes; each is refused by the first check of its rule that applies (sections 9.3 and 9.4). The positions are complete. -/
def Obligations.SpanAndDeckScaleFactors : Prop :=
  -- the refusals
  (∀ (s : State) (tag : Byte) (mass : Word), s.dev.ready .service → 1 ≤ mass.toNat → mass.toNat ≤ 200000 →
    let x := s.dev.weighing.last
    let f := x.filtered
    let reference : Int := 10 * mass.toNat
    let scale := fun (old : Nat) => roundDiv (old * reference) f.toNat
    -- a command of a code, and that one of its new factors falls out of its range
    let checked := fun (code : Byte) (c : Instr) (outside : Prop) =>
      let refused := fun (status : Status) => exec c s = s.goesTo (s.dev.respond .service code tag status .none)
      if s.dev.bridge.state ≠ .standing then refused .notStanding
      else if x.invalid.any = true then refused .cellFault
      else if x.range = .over then refused .overRange
      else if x.stable = false then refused .unstable
      else if f ≤ 0 ∨ 5 * reference < 4 * f ∨ 5 * f < 4 * reference then refused .adjustRange
      else outside → refused .adjustRange
    (s.dev.metro.working = none →
      exec (.calSpan tag mass) s = s.goesTo (s.dev.respond .service 0x65#8 tag .notCalMode .none)
      ∧ ∀ deck : Byte, 1 ≤ deck.toNat → deck.toNat ≤ 4 →
        exec (.calDeck tag deck mass) s = s.goesTo (s.dev.respond .service 0x66#8 tag .notCalMode .none))
    ∧ ∀ w : ParamSet, s.dev.metro.working = some w →
      checked 0x65#8 (.calSpan tag mass)
        (∃ i ∈ w.requiredList, ∃ g, (w.at i).gain = some g ∧ (scale g < 1 ∨ 16777215 < scale g))
      ∧ ∀ deck : Byte, 1 ≤ deck.toNat → deck.toNat ≤ 4 → deck.toNat ≤ w.decks →
        checked 0x66#8 (.calDeck tag deck mass)
          (∃ i ∈ w.requiredList, i / 4 + 1 = deck.toNat ∧ ∃ k, (w.at i).corner = some k ∧ (scale k < 58982 ∨ 72090 < scale k)))
  ∧
  ∀ (s : State) (tag : Byte) (w : ParamSet) (mass : Word), s.dev.ready .service → s.dev.metro.working = some w →
    1 ≤ mass.toNat → mass.toNat ≤ 200000 → s.dev.bridge.state = .standing →
    s.dev.weighing.last.invalid.any = false → s.dev.weighing.last.range ≠ .over → s.dev.weighing.last.stable = true →
    let f := s.dev.weighing.last.filtered
    let reference : Int := 10 * mass.toNat
    let scale := fun (old : Nat) => roundDiv (old * reference) f.toNat
    -- the working copy replaced, its differs mark with it, and the histories due to be emptied
    let edited := fun (w' : ParamSet) (d : Dev) =>
      { d with
        metro := { s.dev.metro with working := some w', differs := decide (w'.arithmetic ≠ s.dev.metro.current.arithmetic) },
        weighing := { s.dev.weighing with emptyDue := true } }
    0 < f → 4 * f ≤ 5 * reference → 4 * reference ≤ 5 * f →
    (∀ i ∈ w.requiredList, (w.at i).gain ≠ none ∧ (w.at i).corner ≠ none) →
    ((∀ i ∈ w.requiredList, ∀ g, (w.at i).gain = some g → 1 ≤ scale g ∧ scale g ≤ 16777215) →
      ∃ w' : ParamSet,
        (∀ i < 16, w'.at i = if w.required i then
            { w.at i with gain := (w.at i).gain.map fun g => (scale g).toNat } else w.at i)
        ∧ { w' with pos := w.pos } = w
        ∧ exec (.calSpan tag mass) s = s.goesTo (edited w' (s.dev.respond .service 0x65#8 tag .ok (.scaled reference f
            (w.requiredList.filterMap fun i => (w.at i).gain.map fun g => (i, g, (scale g).toNat))))))
    ∧ ∀ deck : Byte, 1 ≤ deck.toNat → deck.toNat ≤ w.decks → w.decks ≤ 4 →
      (∀ i ∈ w.requiredList, i / 4 + 1 = deck.toNat → ∀ k, (w.at i).corner = some k →
        58982 ≤ scale k ∧ scale k ≤ 72090) →
      ∃ w' : ParamSet,
        (∀ i < 16, w'.at i = if w.required i = true ∧ i / 4 + 1 = deck.toNat then
            { w.at i with corner := (w.at i).corner.map fun k => (scale k).toNat } else w.at i)
        ∧ { w' with pos := w.pos } = w
        ∧ exec (.calDeck tag deck mass) s = s.goesTo (edited w' (s.dev.respond .service 0x66#8 tag .ok (.scaled reference f
            ((w.requiredList.filter fun i => i / 4 + 1 == deck.toNat).filterMap fun i =>
              (w.at i).corner.map fun k => (i, k, (scale k).toNat)))))

/-- CAL EXIT COMMIT of a complete, changed working copy with a valid clock and room: the header, one PARAM record for each change
(the identifiers 1 to 71 whose values differ, an unset value counting as one, in the order of section 9.1, with the old and the new
value), the parameter block and the counters block are admitted; the copy becomes the current set, the generation rises by one, the
status is PENDING, and where Max is lowered Z_op becomes 0, the histories and the last filtered gross rebased and an OPEN CHECKED
pass shifted with it; the histories are not emptied, and no port changes. It is refused by the first check of its table that
applies, the first incomplete position with it; a copy equal to the current set ends the mode with the note NO_CHANGE (sections 9.1,
9.5, 1.3, 3.5 and 10.4). That zero tracking is coded 1 and 2 in the order listed is the model's reading (log entry 4); that nothing
else of the last sample's result is shifted is the model's choice (log entries 62 and 67). -/
def Obligations.CommitTakesEffectAtAdmission : Prop :=
  -- the parameters by their identifiers, and those that differ between two sets
  (∀ p : ParamSet,
    ([1, 2, 3, 4, 5, 6, 7].map p.get)
        = [some (p.max : Int), some (p.e.kg : Int), some (p.decks : Int), some (if p.fourCells then 4 else 2),
           some (p.window.size : Int), some (p.stability : Int), some (if p.tracking then 1 else 2)]
    ∧ ∀ i < 16, ([8 + 4 * i, 9 + 4 * i, 10 + 4 * i, 11 + 4 * i].map p.get)
        = [some (match (p.at i).map with | some port => (port : Int) | none => -1), (p.at i).offset,
           (p.at i).gain.map fun (g : Nat) => (g : Int), (p.at i).corner.map fun (k : Nat) => (k : Int)])
  ∧ (∀ old new : ParamSet,
    (∀ (id : Nat) (a b : Option Int), (id, a, b) ∈ old.diff new ↔
      1 ≤ id ∧ id ≤ 71 ∧ a = old.get id ∧ b = new.get id ∧ old.get id ≠ new.get id)
    ∧ (old.diff new).Pairwise fun x y => x.1 < y.1)
  -- the checks in their order
  ∧ (∀ (s : State) (tag : Byte), s.dev.ready .service →
    let refused := fun (status : Status) (body : Body) =>
      exec (.calExitCommit tag) s = s.goesTo (s.dev.respond .service 0x67#8 tag status body)
    (s.dev.metro.working = none → refused .notCalMode .none)
    ∧ ∀ w : ParamSet, s.dev.metro.working = some w →
      let whole := fun (i : Nat) =>
        (w.at i).map ≠ none ∧ (w.at i).offset ≠ none ∧ (w.at i).gain ≠ none ∧ (w.at i).corner ≠ none
      let changes := s.dev.metro.current.diff w
      let n := s.dev.store.queue.length
      (∀ (before after : List Nat) (i : Nat), w.requiredList = before ++ i :: after → (∀ j ∈ before, whole j) → ¬ whole i →
        refused .incomplete (.incomplete i))
      ∧ ((∀ i ∈ w.requiredList, whole i) →
        if w.max % w.e.kg ≠ 0 ∨ w.max / w.e.kg < 500 ∨ 10000 < w.max / w.e.kg ∨ 200000 < w.max then refused .range .none
        else if changes = [] then
          ∃ t : Dev, exec (.calExitCommit tag) s = s.goesTo t
            ∧ t.metro = { s.dev.metro with working := none, differs := false }
            ∧ t.weighing = { s.dev.weighing with emptyDue := s.dev.weighing.emptyDue || s.dev.metro.differs }
            ∧ t.answered s.dev .service [⟨0x67#8, tag, .ok, .noteNoChange⟩]
            ∧ t = { s.dev with metro := t.metro, weighing := t.weighing, cells := t.cells, links := t.links }
        else if s.dev.clock.valid = false then refused .timeUnset .none
        else if 65535 ≤ s.dev.metro.generation then refused .generationLimit .none
        else (¬ s.dev.trailHasRoom (changes.length + 1) → refused .auditFull .none)
          ∧ (s.dev.trailHasRoom (changes.length + 1) →
            s.dev.store.waiting ≠ [] ∨ (changes.length + 3 ≤ 16 ∧ 16 < n + changes.length + 3)
              ∨ (16 < changes.length + 3 ∧ n ≠ 0) → refused .storeBusy .none)))
  ∧
  ∀ (s : State) (tag : Byte) (w : ParamSet), s.dev.ready .service → s.dev.metro.working = some w →
    (∀ i ∈ w.requiredList, (w.at i).complete = true) →
    w.max % w.e.kg = 0 → 500 ≤ w.max / w.e.kg → w.max / w.e.kg ≤ 10000 → w.max ≤ 200000 →
    let m := s.dev.metro
    let changes := m.current.diff w
    changes ≠ [] → s.dev.clock.valid = true → m.generation < 65535 → s.dev.trailHasRoom (changes.length + 1) →
    s.dev.store.waiting = [] →
    (s.dev.store.queue.length + changes.length + 3 ≤ 16 ∨ (16 < changes.length + 3 ∧ s.dev.store.queue = [])) →
    let header := m.lastSeq + 1
    let records :=
      (trailRecords m.lastSeq (m.generation + 1) (some s.dev.clock.count)
        (.calCommit m.current.max m.current.e m.status w.max w.e changes.length m.generation
          :: changes.map fun c => .param c.1 c.2.1 c.2.2)).map trailSpec
        ++ [paramSpec w (m.generation + 1) m.site, countersSpec (m.generation + 1) .pending header]
    ∃ t : Dev, exec (.calExitCommit tag) s = s.goesTo t
      ∧ t.metro = { m with current := w, working := none, differs := false, generation := m.generation + 1,
                           status := .pending, statusSeq := header, paramHeld := true,
                           lastSeq := m.lastSeq + changes.length + 1 }
      ∧ t.store = (s.dev.admitted records (.commit (m.generation + 1) changes.length header)).store
      ∧ (let x := s.dev.weighing
          let lower : Prop := w.max < m.current.max
          let shift : Int := 0 - x.zOp
          t.weighing =
            (if lower then
              { x with
                zOp := 0, tracking := 0, filterHist := x.filterHist.map (· - shift), stabHist := x.stabHist.map (· - shift),
                baseline := x.baseline.map (· - shift), last := { x.last with filtered := x.last.filtered - shift } }
            else { x with tracking := 0 })
          ∧ t.axle = { s.dev.axle with pass := s.dev.axle.pass.map fun p =>
              if lower ∧ p.state = .opened ∧ p.kind = .checked then
                { p with
                  m0 := p.m0.map (· - shift),
                  axles := p.axles.map fun a => { a with window := a.window.map fun v =>
                    { v with sum := v.sum - shift * v.count, mean := v.mean.map (· - shift) } } }
              else p })
      ∧ (∀ l : Link, l ≠ .service → t.links.get l = s.dev.links.get l)
      ∧ t.links.service.slot = some ⟨0x67#8, tag, false⟩ ∧ t.links.service.tx = s.dev.links.service.tx
      ∧ t = { s.dev with metro := t.metro, store := t.store, weighing := t.weighing, axle := t.axle, links := t.links }

/-- AUDIT BEGIN opens a session with its header and holds zero tracking; AUDIT POINT sets a waiting point and frees the slot; each is
refused by the first check of its table that applies (section 10.1). -/
def Obligations.AuditsBeginAndTakePoints : Prop :=
  -- the refusals
  (∀ (s : State) (tag : Byte), s.dev.ready .service →
    let x := s.dev.weighing.last.invalid
    let refused := fun (status : Status) =>
      exec (.auditBegin tag) s = s.goesTo (s.dev.respond .service 0x69#8 tag status .none)
    (if s.dev.metro.session ≠ none then refused .audit
      else if s.dev.metro.working ≠ none then refused .calMode
      else if s.dev.bridge.request ≠ none then refused .bridgeBusy
      else if s.dev.clock.valid = false then refused .timeUnset
      else x.unmapped = true ∨ x.unset = true → refused .cellFault)
    ∧ ∀ (kind deck : Byte) (k : PointKind) (reference : Word), pointKindOfByte kind = some k →
      let refused := fun (status : Status) =>
        exec (.auditPoint tag kind deck reference) s = s.goesTo (s.dev.respond .service 0x68#8 tag status .none)
      (s.dev.metro.session = none → refused .notInAudit)
      ∧ ∀ u : Session, s.dev.metro.session = some u →
        if u.waiting ≠ none then refused .pointBusy
        else if 24 ≤ u.points.length then refused .sessionFull
        else (k = .zero ∧ reference ≠ 0#32) ∨ (k ≠ .zero ∧ (reference = 0#32 ∨ 200000 < reference.toNat))
            ∨ (k = .deck ∧ (deck = 0#8 ∨ u.decks < deck.toNat)) → refused .range)
  ∧
  ∀ (s : State) (tag : Byte), s.dev.ready .service →
    (s.dev.metro.session = none → s.dev.metro.working = none → s.dev.bridge.request = none → s.dev.clock.valid = true →
      s.dev.weighing.last.invalid.unmapped = false → s.dev.weighing.last.invalid.unset = false →
      let m := s.dev.metro
      let session : Session :=
        { begunAt := s.dev.clock.count, generation := m.generation, e := m.current.e, decks := m.current.decks,
          inService := m.site.mpeInService, points := [], waiting := none }
      exec (.auditBegin tag) s = s.goesTo
        { (s.dev.respond .service 0x69#8 tag .ok
            (.auditBegin m.generation m.status m.site.mpeInService m.current.e m.current.decks)) with
          metro := { m with session := some session },
          weighing := { s.dev.weighing with tracking := 0 } })
    ∧ ∀ (u : Session) (kind deck : Byte) (k : PointKind) (reference : Word), s.dev.metro.session = some u →
      u.waiting = none → u.points.length < 24 → pointKindOfByte kind = some k →
      (k = .zero → reference = 0#32) → (k ≠ .zero → 1 ≤ reference.toNat ∧ reference.toNat ≤ 200000) →
      (k = .deck → 1 ≤ deck.toNat ∧ deck.toNat ≤ u.decks) →
      let point : WaitingPoint :=
        ⟨k, if k = .deck then deck.toNat else 0, reference.toNat, 0,
          if s.dev.metro.site.waitTimer = 0 then none else some (100 * s.dev.metro.site.waitTimer)⟩
      exec (.auditPoint tag kind deck reference) s = s.goesTo
        (({ s.dev with metro := { s.dev.metro with session := some { u with waiting := some point } } } : Dev).onLink
          .service fun x => { x with handedOff := some (0x68#8, tag) })

/-- R177: AUDIT ABORT is answered NOT_IN_AUDIT with no session; otherwise a waiting point ends ABORTED before the answer, the
session closes, the count of its points is answered, nothing is written, the status is unchanged, the refusals of WEIGH and
ZERO for the session end, and the tracking count counts again. -/
def Obligations.AuditAbortDropsSession : Prop :=
  ∀ (s : State) (tag : Byte), s.dev.ready .service →
    (s.dev.metro.session = none →
      exec (.auditAbort tag) s = s.goesTo (s.dev.respond .service 0x6B#8 tag .notInAudit .none))
    ∧ ∀ u : Session, s.dev.metro.session = some u →
      ∃ t : Dev, exec (.auditAbort tag) s = s.goesTo t ∧ t.metro = { s.dev.metro with session := none }
        ∧ t.answered s.dev .service
            ((match u.waiting, s.dev.links.service.handedOff with
                | some _, some x => [⟨x.1, x.2, .aborted, .none⟩]
                | _, _ => [])
            ++ [⟨0x6B#8, tag, .ok, .number u.points.length⟩])
        ∧ t.nv = s.dev.nv ∧ t.store = s.dev.store ∧ t.metro.status = s.dev.metro.status
        ∧ t.weighRefusal ≠ some .audit ∧ t.zeroRefusal ≠ some .audit
        ∧ (s.dev.metro.working = none → s.dev.metro.current.tracking = true → s.dev.bridge.state = .empty →
          s.dev.weighing.last.stable = true → s.dev.weighing.last.invalid.any = false →
          (s.dev.weighing.last.filtered.natAbs : Int) ≤ 5 * s.dev.metro.current.e.kg →
          t.trackingSample.weighing.tracking = min (t.weighing.tracking + 1) 100)
        ∧ t = { s.dev with metro := t.metro, links := { s.dev.links with service := t.links.service } }

/-- SITE SET, SET TIME, AUDIT END and TRAIL ARCHIVE with room in the trail and the queue: the records admitted, what takes effect at
admission, SET TIME's clock with it, and the slot held until they are written; with AUDIT END's verdict, when coverage is met, and
the worst error, the earliest of greatest magnitude. Each setting's value is taken on its range alone, is read back, and leaves
every other setting; each command is refused by the first check of its rule that applies, and SITE SET of the value held is answered
NO_CHANGE (sections 7.1, 10.1, 10.3, 10.4, 10.5 and A.4). That SET TIME sets the clock at admission, and again at its record's
write, is the model's reading of two rules (log entry 10); the codes 1 and 2 of the settings of two values are its choice (log entry
4). -/
def Obligations.TrailWritersAreAdmitted : Prop :=
  -- the settings by their identifiers
  (∀ (t : SiteSettings) (id : Nat) (v : Int), 1 ≤ id → id ≤ 44 →
    let within := fun (low high : Int) => low ≤ v ∧ v ≤ high
    (t.set? id v ≠ none ↔
      (id = 1 ∧ within 0 120) ∨ (id = 2 ∧ within 500 2000) ∨ (id = 3 ∧ within 1000 3000) ∨ (id = 4 ∧ within 3 15)
        ∨ (id = 5 ∧ within 1 10) ∨ (6 ≤ id ∧ id ≤ 32 ∧ within 0 200000) ∨ (id = 33 ∧ within 0 10)
        ∨ (id ∈ [34, 35, 36, 40] ∧ within 1 2) ∨ (id = 37 ∧ within 1 365) ∨ (id = 38 ∧ within 1 8) ∨ (id = 39 ∧ within 0 2)
        ∨ (41 ≤ id ∧ v ∈ [9600, 19200, 38400, 57600, 115200]))
    ∧ ∀ u, t.set? id v = some u → u.get id = v ∧ ∀ j, 1 ≤ j → j ≤ 44 → j ≠ id → u.get j = t.get j)
  ∧ (∀ t : SiteSettings,
    t.get 1 = t.waitTimer ∧ t.get 2 = t.sensorSpacing ∧ t.get 3 = t.groupSpacing ∧ t.get 4 = t.speedLimit
    ∧ t.get 5 = t.gapTimeout ∧ t.get 6 = t.limits.single ∧ t.get 7 = t.limits.tandem ∧ t.get 8 = t.limits.triaxle
    ∧ t.get 9 = t.limits.quad ∧ (∀ axles : Nat, 2 ≤ axles → axles ≤ 24 → t.get (axles + 8) = t.grossLimit axles)
    ∧ t.get 33 = t.minorBand ∧ t.get 34 = (if t.hold then 2 else 1) ∧ t.get 35 = (if t.autoOpen then 2 else 1)
    ∧ t.get 36 = (if t.defaultDirection = .outturn then 2 else 1) ∧ t.get 37 = t.tareAge ∧ t.get 38 = t.threshold
    ∧ t.get 39 = t.listLimit ∧ t.get 40 = (if t.mpeInService then 2 else 1) ∧ t.get 41 = (t.rate .console).rate
    ∧ t.get 42 = (t.rate .lane).rate ∧ t.get 43 = (t.rate .inventory).rate ∧ t.get 44 = (t.rate .service).rate)
  -- the refusals
  ∧ (∀ (s : State) (tag : Byte),
    let m := s.dev.metro
    let answered := fun (l : Link) (code : Byte) (status : Status) (body : Body) =>
      s.goesTo (s.dev.respond l code tag status body)
    (s.dev.ready .service → ∀ (id : Byte) (value : Word), 1 ≤ id.toNat → id.toNat ≤ 44 →
      m.site.set? id.toNat value.toInt ≠ none →
      let site := exec (.siteSet tag id value) s
      if m.site.get id.toNat = value.toInt then site = answered .service 0x6E#8 .ok .noteNoChange
      else (¬ s.dev.trailHasRoom 1 → site = answered .service 0x6E#8 .auditFull .none)
        ∧ (s.dev.trailHasRoom 1 → ¬ s.dev.hasRoom 2 → site = answered .service 0x6E#8 .storeBusy .none))
    ∧ (s.dev.ready .console → ∀ time : Word, time.toNat ≤ 4294967294 →
      (¬ s.dev.trailHasRoom 1 → exec (.setTime tag time) s = answered .console 0x0A#8 .auditFull .none)
      ∧ (s.dev.trailHasRoom 1 → ¬ s.dev.hasRoom 1 → exec (.setTime tag time) s = answered .console 0x0A#8 .storeBusy .none))
    ∧ (s.dev.ready .service →
      (m.session = none → exec (.auditEnd tag) s = answered .service 0x6A#8 .notInAudit .none)
      ∧ ∀ u : Session, m.session = some u →
        if u.waiting ≠ none then exec (.auditEnd tag) s = answered .service 0x6A#8 .pointBusy .none
        else (¬ s.dev.trailHasRoom 1 → exec (.auditEnd tag) s = answered .service 0x6A#8 .auditFull .none)
          ∧ (s.dev.trailHasRoom 1 → ¬ s.dev.hasRoom 2 → exec (.auditEnd tag) s = answered .service 0x6A#8 .storeBusy .none))
    ∧ (s.dev.ready .service → ∀ n : Word, n.toNat ≤ m.lastSeq →
      if n.toNat ≤ m.boundary then exec (.trailArchive tag n) s = answered .service 0x6D#8 .nothingToArchive .none
      else m.lastSeq < 134217727 → ¬ s.dev.hasRoom 1 →
        exec (.trailArchive tag n) s = answered .service 0x6D#8 .storeBusy .none))
  ∧
  -- coverage and the worst error
  (∀ u : Session,
    let mpe := fun (r : Nat) =>
      let l : Int := 10 * r
      let e : Int := u.e.kg
      (if l ≤ 5000 * e then 5 * e else if l ≤ 20000 * e then 10 * e else 15 * e) * (if u.inService then 2 else 1)
    (u.covered = true ↔
      (∃ p ∈ u.points, p.kind = .zero)
      ∧ (∃ a ∈ u.points, ∃ b ∈ u.points, ∃ c ∈ u.points, a.kind = .loadUp ∧ b.kind = .loadUp ∧ c.kind = .loadUp
        ∧ a.reference ≠ b.reference ∧ a.reference ≠ c.reference ∧ b.reference ≠ c.reference)
      ∧ (∀ deck, 1 ≤ deck → deck ≤ u.decks → ∃ p ∈ u.points, p.kind = .deck ∧ p.deck = deck)
      ∧ ∃ r : Nat,
        let held := u.points.filter fun p => p.kind == .repeated && p.reference == r
        2 ≤ held.length ∧ ∀ p ∈ held, ∀ q ∈ held, p.indication - q.indication ≤ mpe r)
    ∧ (u.points = [] → worstError u.points = 0)
    ∧ ∀ (before after : List AuditPoint) (p : AuditPoint), u.points = before ++ p :: after →
      (∀ q ∈ before, q.error.natAbs < p.error.natAbs) → (∀ q ∈ after, q.error.natAbs ≤ p.error.natAbs) →
      worstError u.points = p.error)
  ∧ ∀ (s : State) (tag : Byte),
    let m := s.dev.metro
    let seq := m.lastSeq + 1
    let now := if s.dev.clock.valid then some s.dev.clock.count else none
    (s.dev.ready .service → s.dev.trailHasRoom 1 → s.dev.hasRoom 2 →
      ∀ (id : Byte) (value : Word) (new : SiteSettings), 1 ≤ id.toNat → id.toNat ≤ 44 →
        m.site.set? id.toNat value.toInt = some new → m.site.get id.toNat ≠ value.toInt →
        ∃ t : Dev, exec (.siteSet tag id value) s = s.goesTo t
          ∧ t.metro = { m with site := new, paramHeld := true, lastSeq := seq }
          ∧ t.store = (s.dev.admitted
              [trailSpec ⟨seq, now, m.generation, .siteChange id.toNat (m.site.get id.toNat) value.toInt⟩,
                paramSpec m.current m.generation new]
              (.siteSet seq ((rateLink id.toNat).map fun l => (l, new.rate l)))).store
          ∧ t.links.service.slot = some ⟨0x6E#8, tag, false⟩ ∧ t.links.service.tx = s.dev.links.service.tx
          ∧ (id.toNat = 38 → new.threshold ≤ (s.dev.tickets.queue.filter (·.posted)).length →
            ∃ c ∈ t.links.inventory.causes, ∃ n k, c.cause = .ticketAvailable n k)
          ∧ (id.toNat ≠ 38 → t.links.inventory = s.dev.links.inventory)
          ∧ t = { s.dev with metro := t.metro, store := t.store, links := t.links })
    ∧ (s.dev.ready .console → s.dev.trailHasRoom 1 → s.dev.hasRoom 1 → ∀ time : Word, time.toNat ≤ 4294967294 →
      ∃ t : Dev, exec (.setTime tag time) s = s.goesTo t ∧ t.metro = { m with lastSeq := seq }
        ∧ t.store = (s.dev.admitted
            [trailSpec ⟨seq, some time.toNat, m.generation, .timeSet now time.toNat⟩]
            (.setTime time.toNat now seq)).store
        ∧ t.links.console.slot = some ⟨0x0A#8, tag, false⟩ ∧ t.links.console.tx = s.dev.links.console.tx
        ∧ t = { s.dev with clock := ⟨time.toNat, true⟩, metro := t.metro, store := t.store, links := t.links })
    ∧ (s.dev.ready .service → s.dev.trailHasRoom 1 → s.dev.hasRoom 2 → ∀ u : Session, m.session = some u →
      u.waiting = none →
      let fail := u.points.any fun p => !p.pass
      let pass := u.covered && !fail
      let status := if pass then VerStatus.verified else .failed
      let worst := roundDiv (worstError u.points) u.e.kg
      ∃ t : Dev, exec (.auditEnd tag) s = s.goesTo t
        ∧ t.metro = { m with session := none, status := status, statusSeq := seq, lastSeq := seq }
        ∧ t.store = (s.dev.admitted
            [trailSpec ⟨seq, now, m.generation,
                .auditResult pass (!u.covered) fail u.inService u.points.length u.e (errorField16 worst) u.begunAt
                  u.generation⟩,
              countersSpec m.generation status seq]
            (.auditEnd pass (!u.covered) fail worst seq (decide (status ≠ m.status)))).store
        ∧ t.links.service.slot = some ⟨0x6A#8, tag, false⟩ ∧ t.links.service.tx = s.dev.links.service.tx
        ∧ t = { s.dev with metro := t.metro, store := t.store, links := t.links })
    ∧ (s.dev.ready .service → s.dev.hasRoom 1 → ∀ n : Word, m.boundary < n.toNat → n.toNat ≤ m.lastSeq →
      m.lastSeq < 134217727 →
      exec (.trailArchive tag n) s = s.goesTo
        { ((s.dev.executing .service 0x6D#8 tag).admitted
            [trailSpec ⟨seq, now, m.generation, .archive n.toNat (n.toNat - m.boundary) (seq - n.toNat)⟩]
            (.archive seq)) with
          metro := { m with boundary := n.toNat, lastSeq := seq } })
end

