-- ==== Sys2Proof/Laws/State.lean ====
section
/-! SUPPORT. One lemma per part of the controller for each plain update of the model, true by rfl, so that no later proof
unfolds a record update. -/

namespace Sys2Proof.Machine

variable (d : Dev) (s : State)

/-! A change of one link: `Dev.onLink`. -/

@[simp] theorem Dev.onLink_phase (l : Link) (f : LinkState → LinkState) : (d.onLink l f).phase = d.phase := rfl
@[simp] theorem Dev.onLink_restartPending (l : Link) (f : LinkState → LinkState) : (d.onLink l f).restartPending = d.restartPending := rfl
@[simp] theorem Dev.onLink_pins (l : Link) (f : LinkState → LinkState) : (d.onLink l f).pins = d.pins := rfl
@[simp] theorem Dev.onLink_cells (l : Link) (f : LinkState → LinkState) : (d.onLink l f).cells = d.cells := rfl
@[simp] theorem Dev.onLink_weighing (l : Link) (f : LinkState → LinkState) : (d.onLink l f).weighing = d.weighing := rfl
@[simp] theorem Dev.onLink_axle (l : Link) (f : LinkState → LinkState) : (d.onLink l f).axle = d.axle := rfl
@[simp] theorem Dev.onLink_bridge (l : Link) (f : LinkState → LinkState) : (d.onLink l f).bridge = d.bridge := rfl
@[simp] theorem Dev.onLink_yard (l : Link) (f : LinkState → LinkState) : (d.onLink l f).yard = d.yard := rfl
@[simp] theorem Dev.onLink_tickets (l : Link) (f : LinkState → LinkState) : (d.onLink l f).tickets = d.tickets := rfl
@[simp] theorem Dev.onLink_metro (l : Link) (f : LinkState → LinkState) : (d.onLink l f).metro = d.metro := rfl
@[simp] theorem Dev.onLink_store (l : Link) (f : LinkState → LinkState) : (d.onLink l f).store = d.store := rfl
@[simp] theorem Dev.onLink_nv (l : Link) (f : LinkState → LinkState) : (d.onLink l f).nv = d.nv := rfl
@[simp] theorem Dev.onLink_links (l : Link) (f : LinkState → LinkState) : (d.onLink l f).links = d.links.modify l f := rfl
@[simp] theorem Dev.onLink_clock (l : Link) (f : LinkState → LinkState) : (d.onLink l f).clock = d.clock := rfl

/-! A cause raised: `Dev.raise`. -/

@[simp] theorem Dev.raise_phase (l : Link) (c : Cause) : (d.raise l c).phase = d.phase := rfl
@[simp] theorem Dev.raise_restartPending (l : Link) (c : Cause) : (d.raise l c).restartPending = d.restartPending := rfl
@[simp] theorem Dev.raise_pins (l : Link) (c : Cause) : (d.raise l c).pins = d.pins := rfl
@[simp] theorem Dev.raise_cells (l : Link) (c : Cause) : (d.raise l c).cells = d.cells := rfl
@[simp] theorem Dev.raise_weighing (l : Link) (c : Cause) : (d.raise l c).weighing = d.weighing := rfl
@[simp] theorem Dev.raise_axle (l : Link) (c : Cause) : (d.raise l c).axle = d.axle := rfl
@[simp] theorem Dev.raise_bridge (l : Link) (c : Cause) : (d.raise l c).bridge = d.bridge := rfl
@[simp] theorem Dev.raise_yard (l : Link) (c : Cause) : (d.raise l c).yard = d.yard := rfl
@[simp] theorem Dev.raise_tickets (l : Link) (c : Cause) : (d.raise l c).tickets = d.tickets := rfl
@[simp] theorem Dev.raise_metro (l : Link) (c : Cause) : (d.raise l c).metro = d.metro := rfl
@[simp] theorem Dev.raise_store (l : Link) (c : Cause) : (d.raise l c).store = d.store := rfl
@[simp] theorem Dev.raise_nv (l : Link) (c : Cause) : (d.raise l c).nv = d.nv := rfl
@[simp] theorem Dev.raise_clock (l : Link) (c : Cause) : (d.raise l c).clock = d.clock := rfl

/-! A response formed: `Dev.respond`. -/

@[simp] theorem Dev.respond_phase (l : Link) (code tag : Byte) (st : Status) (b : Body) : (d.respond l code tag st b).phase = d.phase := rfl
@[simp] theorem Dev.respond_restartPending (l : Link) (code tag : Byte) (st : Status) (b : Body) : (d.respond l code tag st b).restartPending = d.restartPending := rfl
@[simp] theorem Dev.respond_pins (l : Link) (code tag : Byte) (st : Status) (b : Body) : (d.respond l code tag st b).pins = d.pins := rfl
@[simp] theorem Dev.respond_cells (l : Link) (code tag : Byte) (st : Status) (b : Body) : (d.respond l code tag st b).cells = d.cells := rfl
@[simp] theorem Dev.respond_weighing (l : Link) (code tag : Byte) (st : Status) (b : Body) : (d.respond l code tag st b).weighing = d.weighing := rfl
@[simp] theorem Dev.respond_axle (l : Link) (code tag : Byte) (st : Status) (b : Body) : (d.respond l code tag st b).axle = d.axle := rfl
@[simp] theorem Dev.respond_bridge (l : Link) (code tag : Byte) (st : Status) (b : Body) : (d.respond l code tag st b).bridge = d.bridge := rfl
@[simp] theorem Dev.respond_yard (l : Link) (code tag : Byte) (st : Status) (b : Body) : (d.respond l code tag st b).yard = d.yard := rfl
@[simp] theorem Dev.respond_tickets (l : Link) (code tag : Byte) (st : Status) (b : Body) : (d.respond l code tag st b).tickets = d.tickets := rfl
@[simp] theorem Dev.respond_metro (l : Link) (code tag : Byte) (st : Status) (b : Body) : (d.respond l code tag st b).metro = d.metro := rfl
@[simp] theorem Dev.respond_store (l : Link) (code tag : Byte) (st : Status) (b : Body) : (d.respond l code tag st b).store = d.store := rfl
@[simp] theorem Dev.respond_nv (l : Link) (code tag : Byte) (st : Status) (b : Body) : (d.respond l code tag st b).nv = d.nv := rfl
@[simp] theorem Dev.respond_clock (l : Link) (code tag : Byte) (st : Status) (b : Body) : (d.respond l code tag st b).clock = d.clock := rfl

/-! An answer of the link unit: `Dev.linkAnswer`. -/

@[simp] theorem Dev.linkAnswer_phase (l : Link) (code tag : Byte) (st : Status) : (d.linkAnswer l code tag st).phase = d.phase := rfl
@[simp] theorem Dev.linkAnswer_restartPending (l : Link) (code tag : Byte) (st : Status) : (d.linkAnswer l code tag st).restartPending = d.restartPending := rfl
@[simp] theorem Dev.linkAnswer_pins (l : Link) (code tag : Byte) (st : Status) : (d.linkAnswer l code tag st).pins = d.pins := rfl
@[simp] theorem Dev.linkAnswer_cells (l : Link) (code tag : Byte) (st : Status) : (d.linkAnswer l code tag st).cells = d.cells := rfl
@[simp] theorem Dev.linkAnswer_weighing (l : Link) (code tag : Byte) (st : Status) : (d.linkAnswer l code tag st).weighing = d.weighing := rfl
@[simp] theorem Dev.linkAnswer_axle (l : Link) (code tag : Byte) (st : Status) : (d.linkAnswer l code tag st).axle = d.axle := rfl
@[simp] theorem Dev.linkAnswer_bridge (l : Link) (code tag : Byte) (st : Status) : (d.linkAnswer l code tag st).bridge = d.bridge := rfl
@[simp] theorem Dev.linkAnswer_yard (l : Link) (code tag : Byte) (st : Status) : (d.linkAnswer l code tag st).yard = d.yard := rfl
@[simp] theorem Dev.linkAnswer_tickets (l : Link) (code tag : Byte) (st : Status) : (d.linkAnswer l code tag st).tickets = d.tickets := rfl
@[simp] theorem Dev.linkAnswer_metro (l : Link) (code tag : Byte) (st : Status) : (d.linkAnswer l code tag st).metro = d.metro := rfl
@[simp] theorem Dev.linkAnswer_store (l : Link) (code tag : Byte) (st : Status) : (d.linkAnswer l code tag st).store = d.store := rfl
@[simp] theorem Dev.linkAnswer_nv (l : Link) (code tag : Byte) (st : Status) : (d.linkAnswer l code tag st).nv = d.nv := rfl
@[simp] theorem Dev.linkAnswer_clock (l : Link) (code tag : Byte) (st : Status) : (d.linkAnswer l code tag st).clock = d.clock := rfl

/-! The end of a command: `Dev.finish`. -/

@[simp] theorem Dev.finish_phase (l : Link) (st : Status) (b : Body) : (d.finish l st b).phase = d.phase := rfl
@[simp] theorem Dev.finish_restartPending (l : Link) (st : Status) (b : Body) : (d.finish l st b).restartPending = d.restartPending := rfl
@[simp] theorem Dev.finish_pins (l : Link) (st : Status) (b : Body) : (d.finish l st b).pins = d.pins := rfl
@[simp] theorem Dev.finish_cells (l : Link) (st : Status) (b : Body) : (d.finish l st b).cells = d.cells := rfl
@[simp] theorem Dev.finish_weighing (l : Link) (st : Status) (b : Body) : (d.finish l st b).weighing = d.weighing := rfl
@[simp] theorem Dev.finish_axle (l : Link) (st : Status) (b : Body) : (d.finish l st b).axle = d.axle := rfl
@[simp] theorem Dev.finish_bridge (l : Link) (st : Status) (b : Body) : (d.finish l st b).bridge = d.bridge := rfl
@[simp] theorem Dev.finish_yard (l : Link) (st : Status) (b : Body) : (d.finish l st b).yard = d.yard := rfl
@[simp] theorem Dev.finish_tickets (l : Link) (st : Status) (b : Body) : (d.finish l st b).tickets = d.tickets := rfl
@[simp] theorem Dev.finish_metro (l : Link) (st : Status) (b : Body) : (d.finish l st b).metro = d.metro := rfl
@[simp] theorem Dev.finish_store (l : Link) (st : Status) (b : Body) : (d.finish l st b).store = d.store := rfl
@[simp] theorem Dev.finish_nv (l : Link) (st : Status) (b : Body) : (d.finish l st b).nv = d.nv := rfl
@[simp] theorem Dev.finish_clock (l : Link) (st : Status) (b : Body) : (d.finish l st b).clock = d.clock := rfl

/-! A command handed off: `Dev.handOff`. -/

@[simp] theorem Dev.handOff_phase (l : Link) : (d.handOff l).phase = d.phase := rfl
@[simp] theorem Dev.handOff_restartPending (l : Link) : (d.handOff l).restartPending = d.restartPending := rfl
@[simp] theorem Dev.handOff_pins (l : Link) : (d.handOff l).pins = d.pins := rfl
@[simp] theorem Dev.handOff_cells (l : Link) : (d.handOff l).cells = d.cells := rfl
@[simp] theorem Dev.handOff_weighing (l : Link) : (d.handOff l).weighing = d.weighing := rfl
@[simp] theorem Dev.handOff_axle (l : Link) : (d.handOff l).axle = d.axle := rfl
@[simp] theorem Dev.handOff_bridge (l : Link) : (d.handOff l).bridge = d.bridge := rfl
@[simp] theorem Dev.handOff_yard (l : Link) : (d.handOff l).yard = d.yard := rfl
@[simp] theorem Dev.handOff_tickets (l : Link) : (d.handOff l).tickets = d.tickets := rfl
@[simp] theorem Dev.handOff_metro (l : Link) : (d.handOff l).metro = d.metro := rfl
@[simp] theorem Dev.handOff_store (l : Link) : (d.handOff l).store = d.store := rfl
@[simp] theorem Dev.handOff_nv (l : Link) : (d.handOff l).nv = d.nv := rfl
@[simp] theorem Dev.handOff_clock (l : Link) : (d.handOff l).clock = d.clock := rfl

/-! The answer of a handed-off command: `Dev.answerHandedOff`. -/

@[simp] theorem Dev.answerHandedOff_phase (l : Link) (st : Status) (b : Body) : (d.answerHandedOff l st b).phase = d.phase := rfl
@[simp] theorem Dev.answerHandedOff_restartPending (l : Link) (st : Status) (b : Body) : (d.answerHandedOff l st b).restartPending = d.restartPending := rfl
@[simp] theorem Dev.answerHandedOff_pins (l : Link) (st : Status) (b : Body) : (d.answerHandedOff l st b).pins = d.pins := rfl
@[simp] theorem Dev.answerHandedOff_cells (l : Link) (st : Status) (b : Body) : (d.answerHandedOff l st b).cells = d.cells := rfl
@[simp] theorem Dev.answerHandedOff_weighing (l : Link) (st : Status) (b : Body) : (d.answerHandedOff l st b).weighing = d.weighing := rfl
@[simp] theorem Dev.answerHandedOff_axle (l : Link) (st : Status) (b : Body) : (d.answerHandedOff l st b).axle = d.axle := rfl
@[simp] theorem Dev.answerHandedOff_bridge (l : Link) (st : Status) (b : Body) : (d.answerHandedOff l st b).bridge = d.bridge := rfl
@[simp] theorem Dev.answerHandedOff_yard (l : Link) (st : Status) (b : Body) : (d.answerHandedOff l st b).yard = d.yard := rfl
@[simp] theorem Dev.answerHandedOff_tickets (l : Link) (st : Status) (b : Body) : (d.answerHandedOff l st b).tickets = d.tickets := rfl
@[simp] theorem Dev.answerHandedOff_metro (l : Link) (st : Status) (b : Body) : (d.answerHandedOff l st b).metro = d.metro := rfl
@[simp] theorem Dev.answerHandedOff_store (l : Link) (st : Status) (b : Body) : (d.answerHandedOff l st b).store = d.store := rfl
@[simp] theorem Dev.answerHandedOff_nv (l : Link) (st : Status) (b : Body) : (d.answerHandedOff l st b).nv = d.nv := rfl
@[simp] theorem Dev.answerHandedOff_clock (l : Link) (st : Status) (b : Body) : (d.answerHandedOff l st b).clock = d.clock := rfl

/-! A slot EXECUTING: `Dev.executing`. -/

@[simp] theorem Dev.executing_phase (l : Link) (code tag : Byte) : (d.executing l code tag).phase = d.phase := rfl
@[simp] theorem Dev.executing_restartPending (l : Link) (code tag : Byte) : (d.executing l code tag).restartPending = d.restartPending := rfl
@[simp] theorem Dev.executing_pins (l : Link) (code tag : Byte) : (d.executing l code tag).pins = d.pins := rfl
@[simp] theorem Dev.executing_cells (l : Link) (code tag : Byte) : (d.executing l code tag).cells = d.cells := rfl
@[simp] theorem Dev.executing_weighing (l : Link) (code tag : Byte) : (d.executing l code tag).weighing = d.weighing := rfl
@[simp] theorem Dev.executing_axle (l : Link) (code tag : Byte) : (d.executing l code tag).axle = d.axle := rfl
@[simp] theorem Dev.executing_bridge (l : Link) (code tag : Byte) : (d.executing l code tag).bridge = d.bridge := rfl
@[simp] theorem Dev.executing_yard (l : Link) (code tag : Byte) : (d.executing l code tag).yard = d.yard := rfl
@[simp] theorem Dev.executing_tickets (l : Link) (code tag : Byte) : (d.executing l code tag).tickets = d.tickets := rfl
@[simp] theorem Dev.executing_metro (l : Link) (code tag : Byte) : (d.executing l code tag).metro = d.metro := rfl
@[simp] theorem Dev.executing_store (l : Link) (code tag : Byte) : (d.executing l code tag).store = d.store := rfl
@[simp] theorem Dev.executing_nv (l : Link) (code tag : Byte) : (d.executing l code tag).nv = d.nv := rfl
@[simp] theorem Dev.executing_clock (l : Link) (code tag : Byte) : (d.executing l code tag).clock = d.clock := rfl

/-! The link unit's answer: `Dev.unitAnswer`. -/

@[simp] theorem Dev.unitAnswer_phase (l : Link) (code tag : Byte) (st : Status) : (d.unitAnswer l code tag st).phase = d.phase := rfl
@[simp] theorem Dev.unitAnswer_restartPending (l : Link) (code tag : Byte) (st : Status) : (d.unitAnswer l code tag st).restartPending = d.restartPending := rfl
@[simp] theorem Dev.unitAnswer_pins (l : Link) (code tag : Byte) (st : Status) : (d.unitAnswer l code tag st).pins = d.pins := rfl
@[simp] theorem Dev.unitAnswer_cells (l : Link) (code tag : Byte) (st : Status) : (d.unitAnswer l code tag st).cells = d.cells := rfl
@[simp] theorem Dev.unitAnswer_weighing (l : Link) (code tag : Byte) (st : Status) : (d.unitAnswer l code tag st).weighing = d.weighing := rfl
@[simp] theorem Dev.unitAnswer_axle (l : Link) (code tag : Byte) (st : Status) : (d.unitAnswer l code tag st).axle = d.axle := rfl
@[simp] theorem Dev.unitAnswer_bridge (l : Link) (code tag : Byte) (st : Status) : (d.unitAnswer l code tag st).bridge = d.bridge := rfl
@[simp] theorem Dev.unitAnswer_yard (l : Link) (code tag : Byte) (st : Status) : (d.unitAnswer l code tag st).yard = d.yard := rfl
@[simp] theorem Dev.unitAnswer_tickets (l : Link) (code tag : Byte) (st : Status) : (d.unitAnswer l code tag st).tickets = d.tickets := rfl
@[simp] theorem Dev.unitAnswer_metro (l : Link) (code tag : Byte) (st : Status) : (d.unitAnswer l code tag st).metro = d.metro := rfl
@[simp] theorem Dev.unitAnswer_store (l : Link) (code tag : Byte) (st : Status) : (d.unitAnswer l code tag st).store = d.store := rfl
@[simp] theorem Dev.unitAnswer_nv (l : Link) (code tag : Byte) (st : Status) : (d.unitAnswer l code tag st).nv = d.nv := rfl
@[simp] theorem Dev.unitAnswer_clock (l : Link) (code tag : Byte) (st : Status) : (d.unitAnswer l code tag st).clock = d.clock := rfl

/-! A change of the bridge monitor's record: `Dev.onBridge`. -/

@[simp] theorem Dev.onBridge_phase (f : Bridge → Bridge) : (d.onBridge f).phase = d.phase := rfl
@[simp] theorem Dev.onBridge_restartPending (f : Bridge → Bridge) : (d.onBridge f).restartPending = d.restartPending := rfl
@[simp] theorem Dev.onBridge_pins (f : Bridge → Bridge) : (d.onBridge f).pins = d.pins := rfl
@[simp] theorem Dev.onBridge_cells (f : Bridge → Bridge) : (d.onBridge f).cells = d.cells := rfl
@[simp] theorem Dev.onBridge_weighing (f : Bridge → Bridge) : (d.onBridge f).weighing = d.weighing := rfl
@[simp] theorem Dev.onBridge_axle (f : Bridge → Bridge) : (d.onBridge f).axle = d.axle := rfl
@[simp] theorem Dev.onBridge_bridge (f : Bridge → Bridge) : (d.onBridge f).bridge = f d.bridge := rfl
@[simp] theorem Dev.onBridge_yard (f : Bridge → Bridge) : (d.onBridge f).yard = d.yard := rfl
@[simp] theorem Dev.onBridge_tickets (f : Bridge → Bridge) : (d.onBridge f).tickets = d.tickets := rfl
@[simp] theorem Dev.onBridge_metro (f : Bridge → Bridge) : (d.onBridge f).metro = d.metro := rfl
@[simp] theorem Dev.onBridge_store (f : Bridge → Bridge) : (d.onBridge f).store = d.store := rfl
@[simp] theorem Dev.onBridge_nv (f : Bridge → Bridge) : (d.onBridge f).nv = d.nv := rfl
@[simp] theorem Dev.onBridge_links (f : Bridge → Bridge) : (d.onBridge f).links = d.links := rfl
@[simp] theorem Dev.onBridge_clock (f : Bridge → Bridge) : (d.onBridge f).clock = d.clock := rfl

/-! The pass replaced: `Dev.setPass`. -/

@[simp] theorem Dev.setPass_phase (p : Option Pass) : (d.setPass p).phase = d.phase := rfl
@[simp] theorem Dev.setPass_restartPending (p : Option Pass) : (d.setPass p).restartPending = d.restartPending := rfl
@[simp] theorem Dev.setPass_pins (p : Option Pass) : (d.setPass p).pins = d.pins := rfl
@[simp] theorem Dev.setPass_cells (p : Option Pass) : (d.setPass p).cells = d.cells := rfl
@[simp] theorem Dev.setPass_weighing (p : Option Pass) : (d.setPass p).weighing = d.weighing := rfl
@[simp] theorem Dev.setPass_axle (p : Option Pass) : (d.setPass p).axle = { d.axle with pass := p } := rfl
@[simp] theorem Dev.setPass_bridge (p : Option Pass) : (d.setPass p).bridge = d.bridge := rfl
@[simp] theorem Dev.setPass_yard (p : Option Pass) : (d.setPass p).yard = d.yard := rfl
@[simp] theorem Dev.setPass_tickets (p : Option Pass) : (d.setPass p).tickets = d.tickets := rfl
@[simp] theorem Dev.setPass_metro (p : Option Pass) : (d.setPass p).metro = d.metro := rfl
@[simp] theorem Dev.setPass_store (p : Option Pass) : (d.setPass p).store = d.store := rfl
@[simp] theorem Dev.setPass_nv (p : Option Pass) : (d.setPass p).nv = d.nv := rfl
@[simp] theorem Dev.setPass_links (p : Option Pass) : (d.setPass p).links = d.links := rfl
@[simp] theorem Dev.setPass_clock (p : Option Pass) : (d.setPass p).clock = d.clock := rfl

/-! The detection queue replaced: `Dev.setQueue`. -/

@[simp] theorem Dev.setQueue_phase (q : List Detection) : (d.setQueue q).phase = d.phase := rfl
@[simp] theorem Dev.setQueue_restartPending (q : List Detection) : (d.setQueue q).restartPending = d.restartPending := rfl
@[simp] theorem Dev.setQueue_pins (q : List Detection) : (d.setQueue q).pins = d.pins := rfl
@[simp] theorem Dev.setQueue_cells (q : List Detection) : (d.setQueue q).cells = d.cells := rfl
@[simp] theorem Dev.setQueue_weighing (q : List Detection) : (d.setQueue q).weighing = d.weighing := rfl
@[simp] theorem Dev.setQueue_axle (q : List Detection) : (d.setQueue q).axle = { d.axle with queue := q } := rfl
@[simp] theorem Dev.setQueue_bridge (q : List Detection) : (d.setQueue q).bridge = d.bridge := rfl
@[simp] theorem Dev.setQueue_yard (q : List Detection) : (d.setQueue q).yard = d.yard := rfl
@[simp] theorem Dev.setQueue_tickets (q : List Detection) : (d.setQueue q).tickets = d.tickets := rfl
@[simp] theorem Dev.setQueue_metro (q : List Detection) : (d.setQueue q).metro = d.metro := rfl
@[simp] theorem Dev.setQueue_store (q : List Detection) : (d.setQueue q).store = d.store := rfl
@[simp] theorem Dev.setQueue_nv (q : List Detection) : (d.setQueue q).nv = d.nv := rfl
@[simp] theorem Dev.setQueue_links (q : List Detection) : (d.setQueue q).links = d.links := rfl
@[simp] theorem Dev.setQueue_clock (q : List Detection) : (d.setQueue q).clock = d.clock := rfl

/-! The millisecond counter advanced: `Dev.advanceMs`. -/

@[simp] theorem Dev.advanceMs_phase (n : Nat) : (d.advanceMs n).phase = d.phase := rfl
@[simp] theorem Dev.advanceMs_restartPending (n : Nat) : (d.advanceMs n).restartPending = d.restartPending := rfl
@[simp] theorem Dev.advanceMs_pins (n : Nat) : (d.advanceMs n).pins = d.pins := rfl
@[simp] theorem Dev.advanceMs_cells (n : Nat) : (d.advanceMs n).cells = d.cells := rfl
@[simp] theorem Dev.advanceMs_weighing (n : Nat) : (d.advanceMs n).weighing = d.weighing := rfl
@[simp] theorem Dev.advanceMs_axle (n : Nat) : (d.advanceMs n).axle = { d.axle with ms := min (max d.axle.ms n) 281474976710655 } := rfl
@[simp] theorem Dev.advanceMs_bridge (n : Nat) : (d.advanceMs n).bridge = d.bridge := rfl
@[simp] theorem Dev.advanceMs_yard (n : Nat) : (d.advanceMs n).yard = d.yard := rfl
@[simp] theorem Dev.advanceMs_tickets (n : Nat) : (d.advanceMs n).tickets = d.tickets := rfl
@[simp] theorem Dev.advanceMs_metro (n : Nat) : (d.advanceMs n).metro = d.metro := rfl
@[simp] theorem Dev.advanceMs_store (n : Nat) : (d.advanceMs n).store = d.store := rfl
@[simp] theorem Dev.advanceMs_nv (n : Nat) : (d.advanceMs n).nv = d.nv := rfl
@[simp] theorem Dev.advanceMs_links (n : Nat) : (d.advanceMs n).links = d.links := rfl
@[simp] theorem Dev.advanceMs_clock (n : Nat) : (d.advanceMs n).clock = d.clock := rfl

/-! A port's record replaced: `Dev.setPort`. -/

@[simp] theorem Dev.setPort_phase (p : Nat) (r : PortRecord) : (d.setPort p r).phase = d.phase := rfl
@[simp] theorem Dev.setPort_restartPending (p : Nat) (r : PortRecord) : (d.setPort p r).restartPending = d.restartPending := rfl
@[simp] theorem Dev.setPort_pins (p : Nat) (r : PortRecord) : (d.setPort p r).pins = d.pins := rfl
@[simp] theorem Dev.setPort_cells (p : Nat) (r : PortRecord) : (d.setPort p r).cells = d.cells.setIfInBounds p r := rfl
@[simp] theorem Dev.setPort_weighing (p : Nat) (r : PortRecord) : (d.setPort p r).weighing = d.weighing := rfl
@[simp] theorem Dev.setPort_axle (p : Nat) (r : PortRecord) : (d.setPort p r).axle = d.axle := rfl
@[simp] theorem Dev.setPort_bridge (p : Nat) (r : PortRecord) : (d.setPort p r).bridge = d.bridge := rfl
@[simp] theorem Dev.setPort_yard (p : Nat) (r : PortRecord) : (d.setPort p r).yard = d.yard := rfl
@[simp] theorem Dev.setPort_tickets (p : Nat) (r : PortRecord) : (d.setPort p r).tickets = d.tickets := rfl
@[simp] theorem Dev.setPort_metro (p : Nat) (r : PortRecord) : (d.setPort p r).metro = d.metro := rfl
@[simp] theorem Dev.setPort_store (p : Nat) (r : PortRecord) : (d.setPort p r).store = d.store := rfl
@[simp] theorem Dev.setPort_nv (p : Nat) (r : PortRecord) : (d.setPort p r).nv = d.nv := rfl
@[simp] theorem Dev.setPort_links (p : Nat) (r : PortRecord) : (d.setPort p r).links = d.links := rfl
@[simp] theorem Dev.setPort_clock (p : Nat) (r : PortRecord) : (d.setPort p r).clock = d.clock := rfl

/-! The emptying made due: `Dev.emptyHistories`. -/

@[simp] theorem Dev.emptyHistories_phase : d.emptyHistories.phase = d.phase := rfl
@[simp] theorem Dev.emptyHistories_restartPending : d.emptyHistories.restartPending = d.restartPending := rfl
@[simp] theorem Dev.emptyHistories_pins : d.emptyHistories.pins = d.pins := rfl
@[simp] theorem Dev.emptyHistories_cells : d.emptyHistories.cells = d.cells := rfl
@[simp] theorem Dev.emptyHistories_weighing  : d.emptyHistories.weighing = { d.weighing with emptyDue := true } := rfl
@[simp] theorem Dev.emptyHistories_axle : d.emptyHistories.axle = d.axle := rfl
@[simp] theorem Dev.emptyHistories_bridge : d.emptyHistories.bridge = d.bridge := rfl
@[simp] theorem Dev.emptyHistories_yard : d.emptyHistories.yard = d.yard := rfl
@[simp] theorem Dev.emptyHistories_tickets : d.emptyHistories.tickets = d.tickets := rfl
@[simp] theorem Dev.emptyHistories_metro : d.emptyHistories.metro = d.metro := rfl
@[simp] theorem Dev.emptyHistories_store : d.emptyHistories.store = d.store := rfl
@[simp] theorem Dev.emptyHistories_nv : d.emptyHistories.nv = d.nv := rfl
@[simp] theorem Dev.emptyHistories_links : d.emptyHistories.links = d.links := rfl
@[simp] theorem Dev.emptyHistories_clock : d.emptyHistories.clock = d.clock := rfl

/-! The tracking count at 0: `Dev.stopTracking`. -/

@[simp] theorem Dev.stopTracking_phase : d.stopTracking.phase = d.phase := rfl
@[simp] theorem Dev.stopTracking_restartPending : d.stopTracking.restartPending = d.restartPending := rfl
@[simp] theorem Dev.stopTracking_pins : d.stopTracking.pins = d.pins := rfl
@[simp] theorem Dev.stopTracking_cells : d.stopTracking.cells = d.cells := rfl
@[simp] theorem Dev.stopTracking_weighing  : d.stopTracking.weighing = { d.weighing with tracking := 0 } := rfl
@[simp] theorem Dev.stopTracking_axle : d.stopTracking.axle = d.axle := rfl
@[simp] theorem Dev.stopTracking_bridge : d.stopTracking.bridge = d.bridge := rfl
@[simp] theorem Dev.stopTracking_yard : d.stopTracking.yard = d.yard := rfl
@[simp] theorem Dev.stopTracking_tickets : d.stopTracking.tickets = d.tickets := rfl
@[simp] theorem Dev.stopTracking_metro : d.stopTracking.metro = d.metro := rfl
@[simp] theorem Dev.stopTracking_store : d.stopTracking.store = d.store := rfl
@[simp] theorem Dev.stopTracking_nv : d.stopTracking.nv = d.nv := rfl
@[simp] theorem Dev.stopTracking_links : d.stopTracking.links = d.links := rfl
@[simp] theorem Dev.stopTracking_clock : d.stopTracking.clock = d.clock := rfl

/-! The counts of responses to send changed: `Dev.onCounts`. -/

@[simp] theorem Dev.onCounts_phase (f : Nat → Nat) : (d.onCounts f).phase = d.phase := rfl
@[simp] theorem Dev.onCounts_restartPending (f : Nat → Nat) : (d.onCounts f).restartPending = d.restartPending.map f := rfl
@[simp] theorem Dev.onCounts_pins (f : Nat → Nat) : (d.onCounts f).pins = d.pins := rfl
@[simp] theorem Dev.onCounts_cells (f : Nat → Nat) : (d.onCounts f).cells = d.cells := rfl
@[simp] theorem Dev.onCounts_weighing (f : Nat → Nat) : (d.onCounts f).weighing = d.weighing := rfl
@[simp] theorem Dev.onCounts_axle (f : Nat → Nat) : (d.onCounts f).axle = d.axle := rfl
@[simp] theorem Dev.onCounts_bridge (f : Nat → Nat) : (d.onCounts f).bridge = d.bridge := rfl
@[simp] theorem Dev.onCounts_yard (f : Nat → Nat) : (d.onCounts f).yard = d.yard := rfl
@[simp] theorem Dev.onCounts_tickets (f : Nat → Nat) : (d.onCounts f).tickets = d.tickets := rfl
@[simp] theorem Dev.onCounts_metro (f : Nat → Nat) : (d.onCounts f).metro = d.metro := rfl
@[simp] theorem Dev.onCounts_store (f : Nat → Nat) : (d.onCounts f).store = d.store := rfl
@[simp] theorem Dev.onCounts_nv (f : Nat → Nat) : (d.onCounts f).nv = d.nv := rfl
@[simp] theorem Dev.onCounts_links (f : Nat → Nat) : (d.onCounts f).links = d.links.mapAll fun k => { k with newRates := k.newRates.map fun x => (x.1, f x.2) } := rfl
@[simp] theorem Dev.onCounts_clock (f : Nat → Nat) : (d.onCounts f).clock = d.clock := rfl

/-! The ports' values held: `Dev.holdValues`. -/

@[simp] theorem Dev.holdValues_phase : d.holdValues.phase = d.phase := rfl
@[simp] theorem Dev.holdValues_restartPending : d.holdValues.restartPending = d.restartPending := rfl
@[simp] theorem Dev.holdValues_pins : d.holdValues.pins = d.pins := rfl
@[simp] theorem Dev.holdValues_cells : d.holdValues.cells = d.cells.map fun r => { r with fresh := false } := rfl
@[simp] theorem Dev.holdValues_weighing : d.holdValues.weighing = d.weighing := rfl
@[simp] theorem Dev.holdValues_axle : d.holdValues.axle = d.axle := rfl
@[simp] theorem Dev.holdValues_bridge : d.holdValues.bridge = d.bridge := rfl
@[simp] theorem Dev.holdValues_yard : d.holdValues.yard = d.yard := rfl
@[simp] theorem Dev.holdValues_tickets : d.holdValues.tickets = d.tickets := rfl
@[simp] theorem Dev.holdValues_metro : d.holdValues.metro = d.metro := rfl
@[simp] theorem Dev.holdValues_store : d.holdValues.store = d.store := rfl
@[simp] theorem Dev.holdValues_nv : d.holdValues.nv = d.nv := rfl
@[simp] theorem Dev.holdValues_links : d.holdValues.links = d.links := rfl
@[simp] theorem Dev.holdValues_clock : d.holdValues.clock = d.clock := rfl

/-! A response formed on a link: `LinkState.send`. -/

@[simp] theorem LinkState.send_assembly (k : LinkState) (r : Response) : (k.send r).assembly = k.assembly := by unfold LinkState.send; split <;> rfl
@[simp] theorem LinkState.send_breakHeld (k : LinkState) (r : Response) : (k.send r).breakHeld = k.breakHeld := by unfold LinkState.send; split <;> rfl
@[simp] theorem LinkState.send_slot (k : LinkState) (r : Response) : (k.send r).slot = k.slot := by unfold LinkState.send; split <;> rfl
@[simp] theorem LinkState.send_handedOff (k : LinkState) (r : Response) : (k.send r).handedOff = k.handedOff := by unfold LinkState.send; split <;> rfl
@[simp] theorem LinkState.send_causes (k : LinkState) (r : Response) : (k.send r).causes = k.causes := by unfold LinkState.send; split <;> rfl
@[simp] theorem LinkState.send_errors (k : LinkState) (r : Response) : (k.send r).errors = k.errors := by unfold LinkState.send; split <;> rfl
@[simp] theorem LinkState.send_rate (k : LinkState) (r : Response) : (k.send r).rate = k.rate := by unfold LinkState.send; split <;> rfl
@[simp] theorem LinkState.send_newRates (k : LinkState) (r : Response) : (k.send r).newRates = k.newRates := by unfold LinkState.send; split <;> rfl

/-- A response joins a transmit queue that has a place for it. -/
theorem LinkState.send_place {k : LinkState} (hw : k.waiting = []) (ht : k.tx.length < 8) (r : Response) :
    k.send r = { k with tx := k.tx ++ [r] } := by simp [LinkState.send, hw, ht, maxFrames]

/-- A response for which a transmit queue has no place waits. -/
theorem LinkState.send_full {k : LinkState} (h : k.waiting ≠ [] ∨ 8 ≤ k.tx.length) (r : Response) :
    k.send r = { k with waiting := k.waiting ++ [r] } := by
  unfold LinkState.send maxFrames
  rw [if_neg]
  rintro ⟨h1, h2⟩
  rcases h with h | h
  · exact h h1
  · omega

/-- A response formed keeps a transmit queue within 8, and responses wait only behind a full one. -/
theorem LinkState.send_bounded {k : LinkState} (h : k.tx.length ≤ 8 ∧ (k.waiting ≠ [] → k.tx.length = 8)) (r : Response) :
    (k.send r).tx.length ≤ 8 ∧ ((k.send r).waiting ≠ [] → (k.send r).tx.length = 8) := by
  obtain ⟨h1, h2⟩ := h
  unfold LinkState.send maxFrames
  split
  · rename_i h; obtain ⟨hw, ht⟩ := h
    refine ⟨by simp; omega, fun hn => absurd hw (by simpa using hn)⟩
  · rename_i h
    refine ⟨h1, fun _ => ?_⟩
    by_cases hw : k.waiting = []
    · have : ¬ k.tx.length < 8 := fun ht => h ⟨hw, ht⟩
      dsimp only; omega
    · exact h2 hw

/-! The queue of commands and the outcome of a step. -/

@[simp] theorem State.goesTo_eq (e : Dev) : s.goesTo e = .next { s with dev := e } := rfl

/-- Two outcomes that go on are equal where their controllers are. -/
theorem State.goesTo_inj (a b : Dev) : s.goesTo a = s.goesTo b ↔ a = b := by simp [State.goesTo]

/-! The links by name. -/

@[simp] theorem Links.get_console (k : Links) : k.get .console = k.console := rfl
@[simp] theorem Links.get_lane (k : Links) : k.get .lane = k.lane := rfl
@[simp] theorem Links.get_inventory (k : Links) : k.get .inventory = k.inventory := rfl
@[simp] theorem Links.get_service (k : Links) : k.get .service = k.service := rfl

/-- The link changed reads as changed. -/
@[simp] theorem Links.get_modify (k : Links) (l : Link) (f : LinkState → LinkState) : (k.modify l f).get l = f (k.get l) := by
  cases l <;> rfl

/-- Every other link reads as before. -/
theorem Links.get_modify_of_ne (k : Links) (l m : Link) (f : LinkState → LinkState) (h : m ≠ l) :
    (k.modify l f).get m = k.get m := by
  cases l <;> cases m <;> first | rfl | exact absurd rfl h

/-- Each link of the links changed alike reads as changed. -/
@[simp] theorem Links.get_mapAll (k : Links) (l : Link) (f : LinkState → LinkState) : (k.mapAll f).get l = f (k.get l) := by
  cases l <;> rfl

/-- Two changes of one link are one. -/
@[simp] theorem Links.modify_modify (k : Links) (l : Link) (f g : LinkState → LinkState) :
    (k.modify l f).modify l g = k.modify l fun x => g (f x) := by
  cases l <;> rfl

/-- A change that leaves a link as it is changes nothing. -/
theorem Links.modify_id (k : Links) (l : Link) (f : LinkState → LinkState) (h : f (k.get l) = k.get l) :
    k.modify l f = k := by
  cases l <;> simp only [Links.get] at h <;> simp [Links.modify, h]

/-- Two changes of a link that agree on it are the same. -/
theorem Links.modify_congr (k : Links) (l : Link) (f g : LinkState → LinkState) (h : f (k.get l) = g (k.get l)) :
    k.modify l f = k.modify l g := by
  cases l <;> simp only [Links.get] at h <;> simp [Links.modify, h]

/-- Two changes of one link of the controller are one. -/
@[simp] theorem Dev.onLink_onLink (l : Link) (f g : LinkState → LinkState) :
    (d.onLink l f).onLink l g = d.onLink l fun x => g (f x) := by
  simp [Dev.onLink]

/-- Two changes of a link of the controller that agree on it are the same. -/
theorem Dev.onLink_congr (l : Link) (f g : LinkState → LinkState) (h : f (d.links.get l) = g (d.links.get l)) :
    d.onLink l f = d.onLink l g := by
  simp only [Dev.onLink, Links.modify_congr _ _ _ _ h]

end Sys2Proof.Machine
end

