-- ==== Sys2Proof/Laws/Links.lean ====
section
/-! SUPPORT. What the dispatch of a frame, the end of a command and the raising of a cause can do, said once. -/

namespace Sys2Proof.Machine

/-! ## Dispatch (R192, R201) -/

/-- On a link that takes no frames a dispatch does nothing. -/
theorem Dev.dispatch_closed {d : Dev} {l : Link} (h : d.phase ≠ .running ∨ (d.links.get l).breakHeld = true)
    (code tag : Byte) (valid inRange : Bool) (run : Dev → Dev) : d.dispatch l code tag valid inRange run = d := by
  unfold Dev.dispatch
  rcases h with h | h <;> simp [Dev.accepting, h]

/-- A frame of no command of the link, or of a wrong length, is answered INVALID. -/
theorem Dev.dispatch_invalid {d : Dev} {l : Link} (hp : d.phase = .running) (hb : (d.links.get l).breakHeld = false)
    (code tag : Byte) (inRange : Bool) (run : Dev → Dev) :
    d.dispatch l code tag false inRange run = d.unitAnswer l code tag .invalid := by
  simp [Dev.dispatch, Dev.accepting, hp, hb, Dev.unitAnswer, Dev.linkAnswer, satInc]

/-- A frame that finds the slot EXECUTING, or a response waiting for its place, is answered BUSY. -/
theorem Dev.dispatch_busy {d : Dev} {l : Link} (hp : d.phase = .running) (hb : (d.links.get l).breakHeld = false)
    (hs : (d.links.get l).slot ≠ none ∨ (d.links.get l).waiting ≠ []) (code tag : Byte) (inRange : Bool)
    (run : Dev → Dev) : d.dispatch l code tag true inRange run = d.unitAnswer l code tag .busy := by
  have : (d.links.get l).executing = true := by
    unfold LinkState.executing
    cases hx : (d.links.get l).slot <;> cases hw : (d.links.get l).waiting <;> simp_all
  simp [Dev.dispatch, Dev.accepting, hp, hb, this, Dev.unitAnswer, Dev.linkAnswer, satInc]

/-- A field outside its range on a ready link is answered RANGE. -/
theorem Dev.dispatch_range {d : Dev} {l : Link} (h : d.ready l) (code tag : Byte) (run : Dev → Dev) :
    d.dispatch l code tag true false run = d.unitAnswer l code tag .range := by
  obtain ⟨hp, hb, hs, hw⟩ := h
  simp [Dev.dispatch, Dev.accepting, hp, hb, hs, hw, LinkState.executing, Dev.unitAnswer, Dev.linkAnswer, satInc]

/-- A good frame on a ready link is run with the slot EXECUTING. -/
theorem Dev.dispatch_ready {d : Dev} {l : Link} (h : d.ready l) (code tag : Byte) (run : Dev → Dev) :
    d.dispatch l code tag true true run = run (d.executing l code tag) := by
  obtain ⟨hp, hb, hs, hw⟩ := h
  simp [Dev.dispatch, Dev.accepting, hp, hb, hs, hw, LinkState.executing, Dev.executing]

/-- What holds of the controller as it stands, with its links changed, and after the command has run, holds after dispatch. -/
theorem Dev.dispatch_cases {P : Dev → Prop} {d : Dev} {l : Link} {code tag : Byte} {valid inRange : Bool}
    {run : Dev → Dev} (h0 : P d) (ha : ∀ st, P (d.linkAnswer l code tag st))
    (hr : P (run (d.executing l code tag))) : P (d.dispatch l code tag valid inRange run) := by
  unfold Dev.dispatch
  dsimp only
  split
  · exact h0
  · split
    · exact ha _
    · split
      · exact ha _
      · split
        · exact ha _
        · exact hr

/-! ## Ends of commands (R191, R192) -/

/-- A command that ends leaves its link IDLE with its response formed. -/
theorem Dev.finish_executing {d : Dev} {l : Link} {code tag : Byte} (h : (d.links.get l).slot = some ⟨code, tag, false⟩)
    (st : Status) (b : Body) :
    d.finish l st b = d.onLink l fun k => { k with slot := none }.send ⟨code, tag, st, b⟩ := by
  unfold Dev.finish
  apply Dev.onLink_congr
  simp [h]

/-- A command that is answered at once on a ready link adds its response and changes nothing else of the links. -/
theorem Dev.executing_finish {d : Dev} {l : Link} (h : d.ready l) (code tag : Byte) (st : Status) (b : Body) :
    (d.executing l code tag).finish l st b = d.respond l code tag st b := by
  obtain ⟨-, -, hs, -⟩ := h
  unfold Dev.finish Dev.executing Dev.respond
  rw [Dev.onLink_onLink]
  apply Dev.onLink_congr
  generalize d.links.get l = k at hs
  cases k
  simp_all

/-- A command handed off leaves its link IDLE with its code and tag kept. -/
theorem Dev.executing_handOff {d : Dev} {l : Link} (h : d.ready l) (code tag : Byte) :
    (d.executing l code tag).handOff l = d.onLink l fun k => { k with handedOff := some (code, tag) } := by
  obtain ⟨-, -, hs, -⟩ := h
  unfold Dev.handOff Dev.executing
  rw [Dev.onLink_onLink]
  apply Dev.onLink_congr
  generalize d.links.get l = k at hs
  cases k
  simp_all

/-- A handed-off command answered. -/
theorem Dev.answerHandedOff_some {d : Dev} {l : Link} {c g : Byte} (h : (d.links.get l).handedOff = some (c, g))
    (st : Status) (b : Body) :
    d.answerHandedOff l st b = d.onLink l fun k => { k with handedOff := none }.send ⟨c, g, st, b⟩ := by
  unfold Dev.answerHandedOff
  apply Dev.onLink_congr
  simp [h]

/-! ## Causes (R195) -/

/-- A cause raised is pending with its own data. -/
theorem mem_raiseIn (pr : Cause → Nat) (c : Cause) (l : List Pending) : ∃ p ∈ raiseIn pr c l, p.cause = c := by
  induction l with
  | nil => exact ⟨_, List.mem_singleton.2 rfl, rfl⟩
  | cons x t ih =>
    unfold raiseIn
    split
    · exact ⟨_, List.mem_cons_self, rfl⟩
    · split
      · exact ⟨_, List.mem_cons_self, rfl⟩
      · obtain ⟨p, hp, h⟩ := ih
        exact ⟨p, List.mem_cons_of_mem _ hp, h⟩

/-- A pending cause of another priority stays pending. -/
theorem mem_raiseIn_of_ne (pr : Cause → Nat) (c : Cause) (l : List Pending) (p : Pending) (hp : p ∈ l)
    (h : pr c ≠ pr p.cause) : p ∈ raiseIn pr c l := by
  induction l with
  | nil => cases hp
  | cons x t ih =>
    unfold raiseIn
    split
    · exact List.mem_cons_of_mem _ hp
    · split
      · rcases List.mem_cons.1 hp with rfl | hp
        · contradiction
        · exact List.mem_cons_of_mem _ hp
      · rcases List.mem_cons.1 hp with rfl | hp
        · exact List.mem_cons_self
        · exact List.mem_cons_of_mem _ (ih hp)

/-- Every pending cause after a raise is the one raised or was pending before. -/
theorem cause_of_mem_raiseIn (pr : Cause → Nat) (c : Cause) (l : List Pending) (p : Pending) (hp : p ∈ raiseIn pr c l) :
    p.cause = c ∨ p ∈ l := by
  induction l with
  | nil => simp [raiseIn] at hp; simp [hp]
  | cons x t ih =>
    unfold raiseIn at hp
    split at hp
    · rcases List.mem_cons.1 hp with rfl | hp
      · exact .inl rfl
      · exact .inr hp
    · split at hp
      · rcases List.mem_cons.1 hp with rfl | hp
        · exact .inl rfl
        · exact .inr (List.mem_cons_of_mem _ hp)
      · rcases List.mem_cons.1 hp with rfl | hp
        · exact .inr List.mem_cons_self
        · exact (ih hp).imp id (List.mem_cons_of_mem _)

/-- Raising a cause keeps a list in strictly rising priority order. -/
theorem raiseIn_ordered (pr : Cause → Nat) (c : Cause) (l : List Pending)
    (h : l.Pairwise fun a b => pr a.cause < pr b.cause) :
    (raiseIn pr c l).Pairwise fun a b => pr a.cause < pr b.cause := by
  induction l with
  | nil => simp [raiseIn]
  | cons x t ih =>
    rw [List.pairwise_cons] at h
    unfold raiseIn
    split
    · rename_i hlt
      refine List.pairwise_cons.2 ⟨fun y hy => ?_, List.pairwise_cons.2 h⟩
      rcases List.mem_cons.1 hy with rfl | hy
      · exact hlt
      · exact Nat.lt_trans hlt (h.1 y hy)
    · split
      · rename_i heq
        exact List.pairwise_cons.2 ⟨fun y hy => by simpa [heq] using h.1 y hy, h.2⟩
      · rename_i h1 h2
        refine List.pairwise_cons.2 ⟨fun y hy => ?_, ih h.2⟩
        rcases cause_of_mem_raiseIn pr c t y hy with e | hy
        · rw [e]; omega
        · exact h.1 y hy

/-- A cause raised on a link is pending there. -/
theorem Dev.raise_pending (d : Dev) (l : Link) (c : Cause) : ∃ p ∈ ((d.raise l c).links.get l).causes, p.cause = c := by
  simp only [Dev.raise, Dev.onLink, Links.get_modify]
  exact mem_raiseIn _ _ _

/-- A raise leaves every other link as it is. -/
theorem Dev.raise_other (d : Dev) (l m : Link) (c : Cause) (h : m ≠ l) :
    (d.raise l c).links.get m = d.links.get m := by
  simp only [Dev.raise, Dev.onLink]
  exact Links.get_modify_of_ne _ _ _ _ h

end Sys2Proof.Machine
end

