-- ==== Sys2Proof/Laws/Store.lean ====
section
/-! SUPPORT. The laws of the canonical tables and of the protected store's words: reading after writing, and the canonical form
kept; what the write queue can do; and the plain weights of the records. -/

namespace Sys2Proof.Machine

variable {α : Type} [DecidableEq α] {d x : α}

/-! ## Canonical tables -/

/-- A table in form from a key upward is in form from any lower key. -/
theorem tableFrom_mono {low low' : Nat} (h : low ≤ low') :
    ∀ {t : List (Nat × α)}, tableFrom d low' t = true → tableFrom d low t = true
  | [], _ => rfl
  | (i, v) :: t, hw => by
    simp only [tableFrom, Bool.and_eq_true, decide_eq_true_eq] at hw ⊢
    exact ⟨⟨Nat.le_trans h hw.1.1, hw.1.2⟩, hw.2⟩

/-- A key below a table's first reads as the default. -/
theorem tableRead_of_lt {k low : Nat} (h : k < low) :
    ∀ {t : List (Nat × α)}, tableFrom d low t = true → tableRead d k t = d
  | [], _ => rfl
  | (i, v) :: t, hw => by
    simp only [tableFrom, Bool.and_eq_true, decide_eq_true_eq] at hw
    have : k ≠ i := by omega
    simp only [tableRead, this, if_false]
    exact tableRead_of_lt (low := i + 1) (by omega) hw.2

/-- A write keeps the canonical form. -/
theorem tableWrite_from {k low : Nat} (hk : low ≤ k) :
    ∀ {t : List (Nat × α)}, tableFrom d low t = true → tableFrom d low (tableWrite d k x t) = true
  | [], _ => by
    unfold tableWrite
    split <;> simp_all [tableFrom]
  | (i, v) :: t, hw => by
    have hw0 := hw
    simp only [tableFrom, Bool.and_eq_true, decide_eq_true_eq] at hw
    unfold tableWrite
    split
    · split
      · exact hw0
      · simp only [tableFrom, Bool.and_eq_true, decide_eq_true_eq]
        exact ⟨⟨hk, by assumption⟩, ⟨by omega, hw.1.2⟩, hw.2⟩
    · split
      · split
        · exact tableFrom_mono (by omega) hw.2
        · subst k
          simp only [tableFrom, Bool.and_eq_true, decide_eq_true_eq]
          exact ⟨⟨hk, by assumption⟩, hw.2⟩
      · simp only [tableFrom, Bool.and_eq_true, decide_eq_true_eq]
        exact ⟨hw.1, tableWrite_from (by omega) hw.2⟩

/-- A key written reads as written. -/
theorem tableRead_write_same {k low : Nat} :
    ∀ {t : List (Nat × α)}, tableFrom d low t = true → tableRead d k (tableWrite d k x t) = x
  | [], _ => by
    unfold tableWrite
    split <;> simp_all [tableRead]
  | (i, v) :: t, hw => by
    have hw0 := hw
    simp only [tableFrom, Bool.and_eq_true, decide_eq_true_eq] at hw
    unfold tableWrite
    split
    · split
      · rename_i h1 h2
        subst h2
        rw [tableRead, if_neg (by omega)]
        exact tableRead_of_lt (low := i + 1) (by omega) hw.2
      · simp [tableRead]
    · split
      · split
        · rename_i h1 h2 h3
          subst h3
          exact tableRead_of_lt (low := i + 1) (by omega) hw.2
        · simp [tableRead]
      · rename_i h1 h2
        rw [tableRead, if_neg h2]
        exact tableRead_write_same hw.2

/-- Every other key reads as before. -/
theorem tableRead_write_other {j k low : Nat} (h : j ≠ k) :
    ∀ {t : List (Nat × α)}, tableFrom d low t = true → tableRead d j (tableWrite d k x t) = tableRead d j t
  | [], _ => by
    unfold tableWrite
    split <;> simp_all [tableRead]
  | (i, v) :: t, hw => by
    simp only [tableFrom, Bool.and_eq_true, decide_eq_true_eq] at hw
    unfold tableWrite
    split
    · split
      · rfl
      · simp [tableRead, h]
    · split
      · rename_i h1 h2
        subst h2
        split <;> simp [tableRead, h]
      · simp only [tableRead]
        split
        · rfl
        · exact tableRead_write_other h hw.2

/-- A value other than the default reads as written in any table. -/
theorem tableRead_write_of_ne {k : Nat} (h : x ≠ d) : ∀ t : List (Nat × α), tableRead d k (tableWrite d k x t) = x
  | [] => by simp [tableWrite, h, tableRead]
  | (i, v) :: t => by
    unfold tableWrite
    split
    · simp [tableRead]
    · split
      · simp [tableRead]
      · rename_i h1 h2
        rw [tableRead, if_neg h2]
        exact tableRead_write_of_ne h t

/-! ## The protected store -/

/-- A write of a word keeps the store's canonical form. -/
theorem Memory.write_wf {m : Memory} (h : m.wf = true) (a : Nat) (w : StoreWord) : (m.write a w).wf = true :=
  tableWrite_from (Nat.zero_le a) h

/-- Several writes keep it. -/
theorem Memory.writeAll_wf : ∀ (ws : List (Nat × StoreWord)) {m : Memory}, m.wf = true → (m.writeAll ws).wf = true
  | [], _, h => h
  | (a, w) :: t, _, h => Memory.writeAll_wf t (Memory.write_wf h a w)

/-- A word written reads as written. -/
theorem Memory.read_write_same {m : Memory} (h : m.wf = true) (a : Nat) (w : StoreWord) : (m.write a w).read a = w :=
  tableRead_write_same h

/-- Every other word reads as before. -/
theorem Memory.read_write_other {m : Memory} (h : m.wf = true) {a b : Nat} (hab : b ≠ a) (w : StoreWord) :
    (m.write a w).read b = m.read b :=
  tableRead_write_other hab h

/-- A word outside several writes reads as before. -/
theorem Memory.read_writeAll_other {b : Nat} :
    ∀ (ws : List (Nat × StoreWord)) {m : Memory}, m.wf = true → (∀ p ∈ ws, p.1 ≠ b) → (m.writeAll ws).read b = m.read b
  | [], _, _, _ => rfl
  | (a, w) :: t, m, h, hb => by
    rw [Memory.writeAll, Memory.read_writeAll_other t (Memory.write_wf h a w) fun p hp => hb p (List.mem_cons_of_mem _ hp)]
    exact Memory.read_write_other h (fun e => hb _ List.mem_cons_self e.symm) w

/-- A word of several writes at addresses that all differ reads as written. -/
theorem Memory.read_writeAll_mem {b : Nat} {w : StoreWord} :
    ∀ (ws : List (Nat × StoreWord)) {m : Memory}, m.wf = true → (ws.map (·.1)).Nodup → (b, w) ∈ ws →
      (m.writeAll ws).read b = w
  | [], _, _, _, hm => by cases hm
  | (a, v) :: t, m, h, hn, hm => by
    simp only [List.map_cons, List.nodup_cons] at hn
    rcases List.mem_cons.1 hm with e | hm
    · cases e
      rw [Memory.writeAll, Memory.read_writeAll_other t (Memory.write_wf h b w) fun p hp e =>
        hn.1 (List.mem_map.2 ⟨p, hp, e⟩)]
      exact Memory.read_write_same h b w
    · exact Memory.read_writeAll_mem t (Memory.write_wf h a v) hn.2 hm

/-- The store after reset is in canonical form: it lists nothing. -/
theorem reset_store_wf : Memory.wf State.reset.dev.nv = true := rfl

/-! ## The write queue (R142 to R144) -/

/-- The queue is bounded, and records wait only behind a full one. -/
def Store.bounded (s : Store) : Prop := s.queue.length ≤ 16 ∧ (s.waiting ≠ [] → s.queue.length = 16)

/-- A list cut at 16 is bounded. -/
theorem bounded_cut (l : List QueueEntry) : (l.take 16).length ≤ 16 ∧ (l.drop 16 ≠ [] → (l.take 16).length = 16) := by
  refine ⟨by rw [List.length_take]; omega, fun h => ?_⟩
  have : 16 < l.length := by
    rcases Nat.lt_or_ge 16 l.length with h' | h'
    · exact h'
    · exact absurd (List.drop_eq_nil_of_le h') h
  simp [List.length_take]; omega

/-- Joining keeps the bound. -/
theorem Store.join_bounded (s : Store) (es : List QueueEntry) : (s.join es).bounded := bounded_cut _

/-- The head leaving keeps the bound. -/
theorem Store.pop_bounded (s : Store) : s.pop.bounded := bounded_cut _

/-- A scrub entering keeps the bound. -/
theorem Store.enterScrub_bounded {s : Store} (h : s.bounded) (a : Nat) : (s.enterScrub a).bounded := by
  unfold Store.enterScrub
  split
  · rename_i hq
    exact ⟨by simp; omega, fun hw => absurd hq.2 hw⟩
  · exact h

/-- Entries that fit stand at the tail of the queue, behind what it holds. -/
theorem Store.join_of_room {s : Store} {es : List QueueEntry} (hw : s.waiting = []) (h : s.queue.length + es.length ≤ 16) :
    s.join es = { s with queue := s.queue ++ es, waiting := [] } := by
  have hl : (s.queue ++ es).length ≤ 16 := by simpa using h
  simp [Store.join, hw, List.take_of_length_le hl, List.drop_eq_nil_of_le hl]

/-- An operation that the queue has room for is admitted. -/
theorem Dev.admit_of_room {d : Dev} {specs : List RecordSpec} (hp : d.active = true) (hr : d.hasRoom specs.length)
    (report : Done) : d.offer specs report = some (d.admitted specs report) := by
  have hn : specs.length ≤ 16 := by have := hr.2; omega
  simp [Dev.offer, hp, Store.admits, hr.1, hn, hr.2, Dev.admitted]

/-- Every operation admitted is admitted so; admission changes the store controller alone. -/
theorem Dev.admit_eq {d d' : Dev} {specs : List RecordSpec} {report : Done} (h : d.offer specs report = some d') :
    d' = d.admitted specs report := by
  unfold Dev.offer at h
  split at h
  · simpa [Dev.admitted] using h.symm
  · cases h

/-- Taking a record changes the index and the write positions alone. -/
theorem Store.take_queue (s : Store) (spec : RecordSpec) :
    (s.take spec).2.queue = s.queue ∧ (s.take spec).2.waiting = s.waiting := by
  unfold Store.take
  split <;> simp [Store.setIndex]

/-- Taking an operation's records changes the index and the write positions alone. -/
theorem Store.takeAll_queue (s : Store) (specs : List RecordSpec) :
    (s.takeAll specs).2.queue = s.queue ∧ (s.takeAll specs).2.waiting = s.waiting := by
  induction specs generalizing s with
  | nil => exact ⟨rfl, rfl⟩
  | cons x t ih =>
    simp only [Store.takeAll]
    exact ⟨(ih _).1.trans (s.take_queue x).1, (ih _).2.trans (s.take_queue x).2⟩

/-! ## Fields of records (A.4) -/

/-- A weight that fits its plain 24-bit field is read from it as it was written. -/
theorem plainWeight_cast {w : Int} (h : plainWeightOk w) : plainWeight w < 2 ^ 24 ∧ (plainWeight w : Int) = w := by
  unfold plainWeightOk at h
  unfold plainWeight
  omega

end Sys2Proof.Machine
end

