-- ==== Sys2Proof/Laws/Touches.lean ====
section
/-! SUPPORT. What each shared operation can touch, said once: the controller is cut into parts, and an operation touches no
part but those its lemma names. The lemmas extend what a chain of operations has touched by one operation more. -/

namespace Sys2Proof.Machine

/-- The parts of the controller that the rules over all commands speak of. -/
inductive Part
  | phase | restart | pins | cells | zero | weighing | axle | bridge | yard | numbers | tickets | current | site | status
  | metro | store | nv | links | clock
  deriving DecidableEq, Repr

/-- Two controllers agree on a part. -/
def Part.same : Part → Dev → Dev → Prop
  | .phase, d, e => e.phase = d.phase
  | .restart, d, e => e.restartPending = d.restartPending
  | .pins, d, e => e.pins = d.pins
  | .cells, d, e => e.cells = d.cells
  | .zero, d, e => e.weighing.zOp = d.weighing.zOp
  | .weighing, d, e => { e.weighing with zOp := 0 } = { d.weighing with zOp := 0 }
  | .axle, d, e => e.axle = d.axle
  | .bridge, d, e => e.bridge = d.bridge
  | .yard, d, e => e.yard = d.yard
  | .numbers, d, e => e.tickets.lastWeighing = d.tickets.lastWeighing ∧ e.tickets.lastTicket = d.tickets.lastTicket
  | .tickets, d, e => e.tickets.tares = d.tickets.tares ∧ e.tickets.queue = d.tickets.queue
  | .current, d, e => e.metro.current = d.metro.current ∧ e.metro.generation = d.metro.generation
  | .site, d, e => e.metro.site = d.metro.site
  | .status, d, e => e.metro.status = d.metro.status
  | .metro, d, e =>
    { e.metro with current := d.metro.current, generation := 0, site := d.metro.site, status := .pending }
      = { d.metro with generation := 0, status := .pending }
  | .store, d, e => e.store = d.store
  | .nv, d, e => e.nv = d.nv
  | .links, d, e => e.links = d.links
  | .clock, d, e => e.clock = d.clock

theorem Part.same_refl (p : Part) (d : Dev) : p.same d d := by cases p <;> simp [Part.same]

theorem Part.same_trans {p : Part} {a b c : Dev} (h : p.same a b) (k : p.same b c) : p.same a c := by
  cases p <;> simp_all [Part.same]

/-- A controller differs from another in no part but those listed. -/
def Touches (ps : List Part) (d e : Dev) : Prop := ∀ p, p ∉ ps → p.same d e

theorem Touches.refl (ps : List Part) (d : Dev) : Touches ps d d := fun p _ => p.same_refl d

theorem Touches.trans {ps : List Part} {a b c : Dev} (h : Touches ps a b) (k : Touches ps b c) : Touches ps a c :=
  fun p hp => Part.same_trans (h p hp) (k p hp)

theorem Touches.mono {ps qs : List Part} {a b : Dev} (h : Touches ps a b) (hs : ∀ p ∈ ps, p ∈ qs) : Touches qs a b :=
  fun p hp => h p fun hm => hp (hs p hm)

/-- What a part not touched holds. -/
theorem Touches.part {ps : List Part} {a b : Dev} (h : Touches ps a b) (p : Part) (hp : p ∉ ps) : p.same a b := h p hp

/-- An operation that touches no more than the parts listed may follow. -/
theorem Touches.step {ps qs : List Part} {a b c : Dev} (h : Touches ps a b) (k : Touches qs b c)
    (hs : ∀ p ∈ qs, p ∈ ps) : Touches ps a c := h.trans (k.mono hs)

/-- Either of two outcomes. -/
theorem Touches.ite {ps : List Part} {a b c : Dev} {p : Prop} [Decidable p] (h : Touches ps a b) (k : Touches ps a c) :
    Touches ps a (if p then b else c) := by
  split
  · exact h
  · exact k

/-! ## Single parts replaced -/

theorem Touches.withPhase {ps : List Part} {a b : Dev} (h : Touches ps a b) (x : Phase) (hm : Part.phase ∈ ps) :
    Touches ps a { b with phase := x } :=
  h.trans fun p hp => by cases p <;> first | rfl | exact ⟨rfl, rfl⟩ | exact absurd hm hp

theorem Touches.withPins {ps : List Part} {a b : Dev} (h : Touches ps a b) (x : Pins) (hm : Part.pins ∈ ps) :
    Touches ps a { b with pins := x } :=
  h.trans fun p hp => by cases p <;> first | rfl | exact ⟨rfl, rfl⟩ | exact absurd hm hp

theorem Touches.withAxle {ps : List Part} {a b : Dev} (h : Touches ps a b) (x : AxleUnit) (hm : Part.axle ∈ ps) :
    Touches ps a { b with axle := x } :=
  h.trans fun p hp => by cases p <;> first | rfl | exact ⟨rfl, rfl⟩ | exact absurd hm hp

theorem Touches.withBridge {ps : List Part} {a b : Dev} (h : Touches ps a b) (x : Bridge) (hm : Part.bridge ∈ ps) :
    Touches ps a { b with bridge := x } :=
  h.trans fun p hp => by cases p <;> first | rfl | exact ⟨rfl, rfl⟩ | exact absurd hm hp

theorem Touches.withYard {ps : List Part} {a b : Dev} (h : Touches ps a b) (x : Yard) (hm : Part.yard ∈ ps) :
    Touches ps a { b with yard := x } :=
  h.trans fun p hp => by cases p <;> first | rfl | exact ⟨rfl, rfl⟩ | exact absurd hm hp

theorem Touches.withStore {ps : List Part} {a b : Dev} (h : Touches ps a b) (x : Store) (hm : Part.store ∈ ps) :
    Touches ps a { b with store := x } :=
  h.trans fun p hp => by cases p <;> first | rfl | exact ⟨rfl, rfl⟩ | exact absurd hm hp

theorem Touches.withClock {ps : List Part} {a b : Dev} (h : Touches ps a b) (x : Clock) (hm : Part.clock ∈ ps) :
    Touches ps a { b with clock := x } :=
  h.trans fun p hp => by cases p <;> first | rfl | exact ⟨rfl, rfl⟩ | exact absurd hm hp

/-- The weighing unit replaced with its Z_op as it was. -/
theorem Touches.withWeighing {ps : List Part} {a b : Dev} (h : Touches ps a b) (x : Weighing)
    (hz : x.zOp = b.weighing.zOp) (hm : Part.weighing ∈ ps) : Touches ps a { b with weighing := x } :=
  h.trans fun p hp => by cases p <;> first | rfl | exact ⟨rfl, rfl⟩ | exact absurd hm hp | exact hz

/-- The ticket unit replaced with its numbers as they were. -/
theorem Touches.withTickets {ps : List Part} {a b : Dev} (h : Touches ps a b) (x : Tickets)
    (hz : x.lastWeighing = b.tickets.lastWeighing ∧ x.lastTicket = b.tickets.lastTicket) (hm : Part.tickets ∈ ps) :
    Touches ps a { b with tickets := x } :=
  h.trans fun p hp => by cases p <;> first | rfl | exact ⟨rfl, rfl⟩ | exact absurd hm hp | exact hz

/-- The metrology unit replaced with its current set, generation, settings and status as they were. -/
theorem Touches.withMetro {ps : List Part} {a b : Dev} (h : Touches ps a b) (x : Metrology)
    (hc : x.current = b.metro.current ∧ x.generation = b.metro.generation) (hs : x.site = b.metro.site)
    (hv : x.status = b.metro.status) (hm : Part.metro ∈ ps) : Touches ps a { b with metro := x } :=
  h.trans fun p hp => by
    cases p <;> first | rfl | exact ⟨rfl, rfl⟩ | exact absurd hm hp | exact hc | exact hs | exact hv

end Sys2Proof.Machine
end

