-- ==== Sys2Proof/Laws/Operations.lean ====
section
/-! SUPPORT. One lemma for each shared operation that says once which parts of the controller it can touch; every other part
stands. -/

namespace Sys2Proof.Machine

/-! ## Links -/

theorem Touches.onLink (d : Dev) (l : Link) (f : LinkState → LinkState) : Touches [.links] d (d.onLink l f) :=
  fun p hp => by cases p <;> first | rfl | exact ⟨rfl, rfl⟩ | exact absurd (by decide) hp

theorem Touches.raise (d : Dev) (l : Link) (c : Cause) : Touches [.links] d (d.raise l c) :=
  fun p hp => by cases p <;> first | rfl | exact ⟨rfl, rfl⟩ | exact absurd (by decide) hp

theorem Touches.raiseBoth (d : Dev) (c : Cause) : Touches [.links] d (d.raiseBoth c) :=
  fun p hp => by cases p <;> first | rfl | exact ⟨rfl, rfl⟩ | exact absurd (by decide) hp

theorem Touches.raiseAll (d : Dev) (l : Link) (cs : List Cause) : Touches [.links] d (d.raiseAll l cs) := by
  induction cs generalizing d with
  | nil => exact Touches.refl _ _
  | cons c t ih => exact (Touches.raise d l c).trans (ih _)

theorem Touches.respond (d : Dev) (l : Link) (code tag : Byte) (st : Status) (b : Body) :
    Touches [.links] d (d.respond l code tag st b) :=
  fun p hp => by cases p <;> first | rfl | exact ⟨rfl, rfl⟩ | exact absurd (by decide) hp

theorem Touches.linkAnswer (d : Dev) (l : Link) (code tag : Byte) (st : Status) :
    Touches [.links] d (d.linkAnswer l code tag st) :=
  fun p hp => by cases p <;> first | rfl | exact ⟨rfl, rfl⟩ | exact absurd (by decide) hp

theorem Touches.finish (d : Dev) (l : Link) (st : Status) (b : Body) : Touches [.links] d (d.finish l st b) :=
  fun p hp => by cases p <;> first | rfl | exact ⟨rfl, rfl⟩ | exact absurd (by decide) hp

theorem Touches.handOff (d : Dev) (l : Link) : Touches [.links] d (d.handOff l) :=
  fun p hp => by cases p <;> first | rfl | exact ⟨rfl, rfl⟩ | exact absurd (by decide) hp

theorem Touches.answerHandedOff (d : Dev) (l : Link) (st : Status) (b : Body) :
    Touches [.links] d (d.answerHandedOff l st b) :=
  fun p hp => by cases p <;> first | rfl | exact ⟨rfl, rfl⟩ | exact absurd (by decide) hp

theorem Touches.onCounts (d : Dev) (f : Nat → Nat) : Touches [.restart, .links] d (d.onCounts f) :=
  fun p hp => by cases p <;> first | rfl | exact ⟨rfl, rfl⟩ | exact absurd (by decide) hp

theorem Touches.executing (d : Dev) (l : Link) (code tag : Byte) : Touches [.links] d (d.executing l code tag) :=
  fun p hp => by cases p <;> first | rfl | exact ⟨rfl, rfl⟩ | exact absurd (by decide) hp

/-- A dispatched command touches the links, and what its run touches. -/
theorem Touches.dispatch {ps : List Part} {d : Dev} {l : Link} {code tag : Byte} {valid inRange : Bool} {run : Dev → Dev}
    (hr : Touches ps (d.executing l code tag) (run (d.executing l code tag))) (hm : Part.links ∈ ps) :
    Touches ps d (d.dispatch l code tag valid inRange run) := by
  have hl : ∀ q ∈ [Part.links], q ∈ ps := by simpa using hm
  exact Dev.dispatch_cases (P := Touches ps d) (Touches.refl _ _) (fun st => (Touches.linkAnswer d l code tag st).mono hl)
    (((Touches.executing d l code tag).mono hl).trans hr)

/-! ## The store controller -/

/-- An operation admitted touches the store controller alone. -/
theorem Touches.offer {d d' : Dev} {specs : List RecordSpec} {report : Done} (h : d.offer specs report = some d') :
    Touches [.store] d d' := by
  rw [Dev.admit_eq h]
  exact fun p hp => by cases p <;> first | rfl | exact ⟨rfl, rfl⟩ | exact absurd (by decide) hp

theorem Touches.repair (d : Dev) (r : Region) (slot : Nat) : Touches [.store] d (d.repair r slot) := by
  unfold Dev.repair
  split
  · exact Touches.offer ‹_›
  · exact Touches.refl _ _

theorem Touches.startWrite (d : Dev) (spec : RecordSpec) (report : Done) :
    Touches [.store] d (d.startWrite spec report) :=
  fun p hp => by cases p <;> first | rfl | exact ⟨rfl, rfl⟩ | exact absurd (by decide) hp

theorem Touches.noteReads (d : Dev) (r : Region) (slot : Nat) (src : ReadSource) (faults : Bool) (key : Option Nat)
    (ws : List WordRead) : Touches [.store, .links] d (d.noteReads r slot src faults key ws) := by
  induction ws generalizing d with
  | nil => exact Touches.refl _ _
  | cons w t ih =>
    refine Touches.trans ?_ (ih _)
    split
    · exact Touches.withStore (Touches.refl _ _) _ (by decide)
    · split
      · split
        · exact (Touches.withStore (Touches.refl _ _) _ (by decide)).step (Touches.raiseBoth _ _) (by decide)
        · exact Touches.withStore (Touches.refl _ _) _ (by decide)
      · exact Touches.refl _ _

/-- A read of a slot touches the store controller and the links. -/
theorem Touches.readSlot {d d' : Dev} {r : Region} {slot : Nat} {src : ReadSource} {f : SlotRead}
    (h : d.readSlot r slot src = (f, d')) : Touches [.store, .links] d d' := by
  obtain ⟨-, rfl⟩ := Prod.mk.inj h
  exact Touches.withStore (Touches.noteReads d _ _ _ _ _ _) _ (by decide)

/-- So does the lookup of a record. -/
theorem Touches.lookup {α : Type} {d d' : Dev} {r : Region} {slot key : Nat} {decode : List Word → Option α} {f : Found α}
    {x : SlotRead} (h : d.lookup r slot key decode = (f, x, d')) : Touches [.store, .links] d d' := by
  unfold Dev.lookup at h
  dsimp only at h
  split at h
  · have hr := Touches.readSlot (d := d) (r := r) (slot := slot) (src := .read) rfl
    obtain ⟨-, -, rfl⟩ := by simpa using h
    exact hr
  · split at h
    · have hr := Touches.readSlot (d := d) (r := r) (slot := slot) (src := .read) rfl
      split at h
      · split at h <;> (obtain ⟨-, -, rfl⟩ := by simpa using h) <;> exact hr
      · obtain ⟨-, -, rfl⟩ := by simpa using h
        exact hr
      · obtain ⟨-, -, rfl⟩ := by simpa using h
        exact hr
    · obtain ⟨-, -, rfl⟩ := by simpa using h
      exact Touches.refl _ _

theorem Touches.nearFull (d : Dev) (n : Nat) : Touches [.links] d (d.nearFull n) := by
  unfold Dev.nearFull
  try dsimp only
  repeat' split
  all_goals
    repeat first
      | exact Touches.refl _ _
      | refine Touches.step ?_ (Touches.raise _ _ _) (by decide)

theorem Touches.verifyStatus (d : Dev) (c : VerifyCause) : Touches [.links] d (d.verifyStatus c) :=
  fun p hp => by cases p <;> first | rfl | exact ⟨rfl, rfl⟩ | exact absurd (by decide) hp

/-- Trail records admitted touch the store controller, the trail position and the links. -/
theorem Touches.offerTrail {d d' : Dev} {bodies : List TrailBody} {generation : Nat} {time : Option Nat}
    {rest : List RecordSpec} {report : Done} (h : d.offerTrail bodies generation time rest report = .ok d') :
    Touches [.store, .metro, .links] d d' := by
  unfold Dev.offerTrail at h
  dsimp only at h
  split at h
  · cases h
  · split at h
    · cases h
    · rename_i e he
      cases h
      have ha := (Touches.offer he).mono (qs := [.store, .metro, .links]) (by decide)
      refine Touches.step ?_ (Touches.nearFull _ _) (by decide)
      refine Touches.withMetro ha _ ⟨rfl, rfl⟩ rfl rfl (by decide)

/-! ## The cell intake unit and the weighing unit -/

theorem Touches.setPort (d : Dev) (p : Nat) (r : PortRecord) : Touches [.cells] d (d.setPort p r) :=
  fun p hp => by cases p <;> first | rfl | exact ⟨rfl, rfl⟩ | exact absurd (by decide) hp

theorem Touches.putPort (d : Dev) (p : Nat) (r : PortRecord) : Touches [.cells, .links] d (d.putPort p r) := by
  unfold Dev.putPort
  try dsimp only
  repeat' split
  all_goals
    repeat first
      | exact Touches.refl _ _
      | refine Touches.step ?_ (Touches.raiseBoth _ _) (by decide)
      | refine Touches.step ?_ (Touches.setPort _ _ _) (by decide)

theorem Touches.readPort (d : Dev) (p : Nat) : Touches [.cells, .links] d (d.readPort p) := by
  unfold Dev.readPort
  try dsimp only
  repeat' split
  all_goals
    repeat first
      | exact Touches.refl _ _
      | refine Touches.step ?_ (Touches.setPort _ _ _) (by decide)
      | refine Touches.step ?_ (Touches.putPort _ _ _) (by decide)

theorem Touches.holdValues (d : Dev) : Touches [.cells] d d.holdValues :=
  fun p hp => by cases p <;> first | rfl | exact ⟨rfl, rfl⟩ | exact absurd (by decide) hp

theorem Touches.readPorts (d : Dev) (l : List Nat) : Touches [.cells, .links] d (d.readPorts l) := by
  induction l generalizing d with
  | nil => exact Touches.refl _ _
  | cons p t ih =>
    refine Touches.trans ?_ (ih _)
    split
    · exact Touches.readPort _ _
    · exact Touches.refl _ _

theorem Touches.followPorts (old new : ParamSet) (d : Dev) (l : List Nat) :
    Touches [.cells, .links] d (Dev.followPorts old new d l) := by
  induction l generalizing d with
  | nil => exact Touches.refl _ _
  | cons p t ih =>
    refine Touches.trans ?_ (ih _)
    split
    · exact Touches.putPort _ _ _
    · exact Touches.putPort _ _ _
    · exact Touches.refl _ _

theorem Touches.computeSample (d : Dev) : Touches [.weighing] d d.computeSample := by
  refine Touches.withWeighing (Touches.refl _ _) _ ?_ (by decide)
  simp only [Weighing.emptied]
  split <;> rfl

theorem Touches.trackingSample (d : Dev) : Touches [.weighing] d d.trackingSample :=
  fun p hp => by cases p <;> first | rfl | exact ⟨rfl, rfl⟩ | exact absurd (by decide) hp

theorem Touches.emptyHistories (d : Dev) : Touches [.weighing] d d.emptyHistories :=
  fun p hp => by cases p <;> first | rfl | exact ⟨rfl, rfl⟩ | exact absurd (by decide) hp

theorem Touches.stopTracking (d : Dev) : Touches [.weighing] d d.stopTracking :=
  fun p hp => by cases p <;> first | rfl | exact ⟨rfl, rfl⟩ | exact absurd (by decide) hp

theorem Touches.changeZero (d : Dev) (z : Int) : Touches [.zero, .weighing, .axle] d (d.changeZero z) :=
  fun p hp => by cases p <;> first | rfl | exact ⟨rfl, rfl⟩ | exact absurd (by decide) hp

/-! ## The bridge monitor and the axle unit -/

theorem Touches.changeBridge (d : Dev) (s : BridgeState) : Touches [.bridge, .links] d (d.changeBridge s) := by
  unfold Dev.changeBridge
  try dsimp only
  repeat' split
  all_goals
    repeat first
      | exact Touches.refl _ _
      | refine Touches.step ?_ (Touches.raise _ _ _) (by decide)
      | refine Touches.withBridge ?_ _ (by decide)

theorem Touches.onBridge (d : Dev) (f : Bridge → Bridge) : Touches [.bridge] d (d.onBridge f) :=
  fun p hp => by cases p <;> first | rfl | exact ⟨rfl, rfl⟩ | exact absurd (by decide) hp

theorem Touches.setPass (d : Dev) (p : Option Pass) : Touches [.axle] d (d.setPass p) :=
  fun p hp => by cases p <;> first | rfl | exact ⟨rfl, rfl⟩ | exact absurd (by decide) hp

theorem Touches.setQueue (d : Dev) (q : List Detection) : Touches [.axle] d (d.setQueue q) :=
  fun p hp => by cases p <;> first | rfl | exact ⟨rfl, rfl⟩ | exact absurd (by decide) hp

theorem Touches.advanceMs (d : Dev) (n : Nat) : Touches [.axle] d (d.advanceMs n) :=
  fun p hp => by cases p <;> first | rfl | exact ⟨rfl, rfl⟩ | exact absurd (by decide) hp

theorem Touches.markOpen (d : Dev) (f : PassMarks → PassMarks) : Touches [.axle] d (d.markOpen f) := by
  unfold Dev.markOpen
  try dsimp only
  repeat' split
  all_goals
    repeat first
      | exact Touches.refl _ _
      | refine Touches.step ?_ (Touches.setPass _ _) (by decide)

theorem Touches.reportEnding (d : Dev) (p : Pass) (r : CloseReason) :
    Touches [.bridge, .links] d (d.reportEnding p r) := by
  unfold Dev.reportEnding
  try dsimp only
  repeat' split
  all_goals
    repeat first
      | exact Touches.refl _ _
      | refine Touches.step ?_ (Touches.raise _ _ _) (by decide)
      | refine Touches.step ?_ (Touches.changeBridge _ _) (by decide)

theorem Touches.closePass (d : Dev) (p : Pass) : Touches [.axle, .bridge, .links] d (d.closePass p) := by
  unfold Dev.closePass
  try dsimp only
  repeat' split
  all_goals
    repeat first
      | exact Touches.refl _ _
      | refine Touches.step ?_ (Touches.reportEnding _ _ _) (by decide)
      | refine Touches.step ?_ (Touches.setPass _ _) (by decide)

theorem Touches.abortPass (d : Dev) (r : CloseReason) : Touches [.axle, .bridge, .links] d (d.abortPass r) := by
  unfold Dev.abortPass
  try dsimp only
  repeat' split
  all_goals
    repeat first
      | exact Touches.refl _ _
      | refine Touches.step ?_ (Touches.reportEnding _ _ _) (by decide)
      | refine Touches.step ?_ (Touches.setPass _ _) (by decide)

theorem Touches.closeDirected (d : Dev) : Touches [.axle, .bridge, .links] d d.closeDirected := by
  unfold Dev.closeDirected
  try dsimp only
  repeat' split
  all_goals
    repeat first
      | exact Touches.refl _ _
      | refine Touches.step ?_ (Touches.closePass _ _) (by decide)

theorem Touches.openPass (d : Dev) (k : PassKind) (e : EntryEnd) (f : Bool) (n : Nat) :
    Touches [.axle, .bridge, .links] d (d.openPass k e f n) := by
  unfold Dev.openPass
  try dsimp only
  repeat' split
  all_goals
    repeat first
      | exact Touches.refl _ _
      | refine Touches.step ?_ (Touches.setPass _ _) (by decide)
      | refine Touches.step ?_ (Touches.onBridge _ _) (by decide)

theorem Touches.endWaiting (d : Dev) (st : Status) : Touches [.bridge, .links] d (d.endWaiting st) := by
  unfold Dev.endWaiting
  try dsimp only
  repeat' split
  all_goals
    repeat first
      | exact Touches.refl _ _
      | refine Touches.step ?_ (Touches.changeBridge _ _) (by decide)
      | refine Touches.step ?_ (Touches.onBridge _ _) (by decide)
      | refine Touches.step ?_ (Touches.answerHandedOff _ _ _ _) (by decide)

theorem Touches.crossStanding (d : Dev) (k : Int) (l : Bool) : Touches [.bridge, .links] d (d.crossStanding k l) := by
  unfold Dev.crossStanding
  try dsimp only
  repeat' split
  all_goals
    repeat first
      | exact Touches.refl _ _
      | refine Touches.step ?_ (Touches.changeBridge _ _) (by decide)
      | refine Touches.step ?_ (Touches.onBridge _ _) (by decide)

theorem Touches.bridgeCrossing (d : Dev) (k : CrossingKind) :
    Touches [.axle, .bridge, .links] d (d.bridgeCrossing k) := by
  unfold Dev.bridgeCrossing
  try dsimp only
  repeat' split
  all_goals
    repeat first
      | exact Touches.refl _ _
      | refine Touches.step ?_ (Touches.answerHandedOff _ _ _ _) (by decide)
      | refine Touches.step ?_ (Touches.crossStanding _ _ _) (by decide)
      | refine Touches.step ?_ (Touches.closeDirected _) (by decide)
      | refine Touches.step ?_ (Touches.changeBridge _ _) (by decide)
      | refine Touches.step ?_ (Touches.onBridge _ _) (by decide)
      | refine Touches.step ?_ (Touches.endWaiting _ _) (by decide)

theorem Touches.applyCrossing (d : Dev) (c : Crossing) : Touches [.axle, .bridge, .links] d (d.applyCrossing c) := by
  unfold Dev.applyCrossing
  try dsimp only
  repeat' split
  all_goals
    repeat first
      | exact Touches.refl _ _
      | refine Touches.step ?_ (Touches.abortPass _ _) (by decide)
      | refine Touches.step ?_ (Touches.setPass _ _) (by decide)

theorem Touches.endZeroCapture (d : Dev) (st : Status) : Touches [.metro, .links] d (d.endZeroCapture st) := by
  unfold Dev.endZeroCapture
  try dsimp only
  repeat' split
  all_goals
    repeat first
      | exact Touches.refl _ _
      | refine Touches.step ?_ (Touches.finish _ _ _ _) (by decide)
      | refine Touches.withMetro ?_ _ ⟨rfl, rfl⟩ rfl rfl (by decide)

theorem Touches.clearPoint (d : Dev) : Touches [.metro] d d.clearPoint :=
  fun p hp => by cases p <;> first | rfl | exact ⟨rfl, rfl⟩ | exact absurd (by decide) hp

theorem Touches.endPoint (d : Dev) (st : Status) : Touches [.metro, .links] d (d.endPoint st) := by
  unfold Dev.endPoint
  try dsimp only
  repeat' split
  all_goals
    repeat first
      | exact Touches.refl _ _
      | refine Touches.step ?_ (Touches.answerHandedOff _ _ _ _) (by decide)
      | refine Touches.step ?_ (Touches.clearPoint _) (by decide)

theorem Touches.takeCrossing (d : Dev) (c : Crossing) :
    Touches [.axle, .bridge, .links, .metro] d (d.takeCrossing c) := by
  unfold Dev.takeCrossing
  try dsimp only
  repeat' split
  all_goals
    repeat first
      | exact Touches.refl _ _
      | refine Touches.step ?_ (Touches.bridgeCrossing _ _) (by decide)
      | refine Touches.step ?_ (Touches.endPoint _ _) (by decide)
      | refine Touches.step ?_ (Touches.applyCrossing _ _) (by decide)

theorem Touches.takeForward (d : Dev) (a b : Nat) :
    Touches [.axle, .bridge, .links, .metro] d (d.takeForward a b) := by
  unfold Dev.takeForward
  try dsimp only
  repeat' split
  all_goals
    repeat first
      | exact Touches.refl _ _
      | refine Touches.step ?_ (Touches.takeCrossing _ _) (by decide)
      | refine Touches.step ?_ (Touches.markOpen _ _) (by decide)

theorem Touches.resolve (n : Nat) (d : Dev) : Touches [.axle, .bridge, .links, .metro] d (Dev.resolve n d) := by
  induction n generalizing d with
  | zero => exact Touches.refl _ _
  | succ n ih =>
    unfold Dev.resolve
    split
    · exact Touches.refl _ _
    · split
      · exact (((Touches.setQueue d _).mono (by decide)).step (Touches.takeCrossing _ _) (by decide)).trans (ih _)
      · split
        · exact (((Touches.setQueue d _).mono (by decide)).step (Touches.takeForward _ _ _) (by decide)).trans (ih _)
        · exact Touches.refl _ _
      · split
        · exact (((Touches.setQueue d _).mono (by decide)).step (Touches.takeCrossing _ _) (by decide)).trans (ih _)
        · exact Touches.refl _ _

theorem Touches.resolveAll (d : Dev) : Touches [.axle, .bridge, .links, .metro] d d.resolveAll := Touches.resolve _ _

theorem Touches.directDetection (d : Dev) (s : Sensor) (n : Nat) :
    Touches [.axle, .bridge, .links] d (d.directDetection s n) := by
  unfold Dev.directDetection
  try dsimp only
  repeat' split
  all_goals
    repeat first
      | exact Touches.refl _ _
      | refine Touches.step ?_ (Touches.raise _ _ _) (by decide)
      | refine Touches.step ?_ (Touches.changeBridge _ _) (by decide)
      | refine Touches.step ?_ (Touches.openPass _ _ _ _ _) (by decide)

theorem Touches.standUnseen (d : Dev) (m : Bool) : Touches [.axle, .bridge, .links] d (d.standUnseen m) := by
  unfold Dev.standUnseen
  try dsimp only
  repeat' split
  all_goals
    repeat first
      | exact Touches.refl _ _
      | refine Touches.step ?_ (Touches.raise _ _ _) (by decide)
      | refine Touches.step ?_ (Touches.changeBridge _ _) (by decide)
      | refine Touches.step ?_ (Touches.onBridge _ _) (by decide)
      | refine Touches.step ?_ (Touches.setPass _ _) (by decide)

theorem Touches.emptyBridge (d : Dev) : Touches [.bridge, .links] d d.emptyBridge := by
  unfold Dev.emptyBridge
  try dsimp only
  repeat' split
  all_goals
    repeat first
      | exact Touches.refl _ _
      | refine Touches.step ?_ (Touches.raise _ _ _) (by decide)
      | refine Touches.step ?_ (Touches.changeBridge _ _) (by decide)
      | refine Touches.step ?_ (Touches.onBridge _ _) (by decide)

theorem Touches.sampleBridge (d : Dev) : Touches [.axle, .bridge, .links] d d.sampleBridge := by
  unfold Dev.sampleBridge
  try dsimp only
  repeat' split
  all_goals
    repeat first
      | exact Touches.refl _ _
      | refine Touches.step ?_ (Touches.emptyBridge _) (by decide)
      | refine Touches.step ?_ (Touches.standUnseen _ _) (by decide)
      | refine Touches.step ?_ (Touches.changeBridge _ _) (by decide)
      | refine Touches.step ?_ (Touches.onBridge _ _) (by decide)

theorem Touches.samplePass (d : Dev) : Touches [.axle] d d.samplePass := by
  unfold Dev.samplePass
  try dsimp only
  repeat' split
  all_goals
    repeat first
      | exact Touches.refl _ _
      | refine Touches.step ?_ (Touches.setPass _ _) (by decide)

theorem Touches.completeWindows (d : Dev) : Touches [.axle] d d.completeWindows := by
  unfold Dev.completeWindows
  try dsimp only
  repeat' split
  all_goals
    repeat first
      | exact Touches.refl _ _
      | refine Touches.step ?_ (Touches.setPass _ _) (by decide)

theorem Touches.applyRelease (d : Dev) : Touches [.axle, .bridge, .links, .weighing] d d.applyRelease := by
  unfold Dev.applyRelease
  extract_lets was d1 d2 d3
  have h1 : Touches [.axle, .bridge, .links, .weighing] d d1 :=
    Touches.ite
      (((Touches.answerHandedOff d _ _ _).mono (by decide)).step (Touches.onBridge _ _) (by decide)) (Touches.refl _ _)
  have h2 : Touches [.axle, .bridge, .links, .weighing] d d2 :=
    Touches.ite (h1.step (Touches.abortPass _ _) (by decide)) (h1.step (Touches.setPass _ _) (by decide))
  have h3 : Touches [.axle, .bridge, .links, .weighing] d d3 :=
    ((h2.step (Touches.setQueue _ _) (by decide)).step (Touches.onBridge _ _) (by decide)).step (Touches.changeBridge _ _)
      (by decide)
  exact Touches.ite h3 (Touches.withWeighing h3 _ rfl (by decide))

theorem Touches.weighReport (d : Dev) (r : WeighResult) :
    Touches [.axle, .bridge, .links, .weighing, .yard] d (d.weighReport r) := by
  unfold Dev.weighReport
  extract_lets body d1 d2 next held d3
  have h2 : Touches [.axle, .bridge, .links, .weighing, .yard] d d2 :=
    Touches.withYard ((Touches.answerHandedOff d _ _ _).mono (by decide)) _ (by decide)
  have h3 : Touches [.axle, .bridge, .links, .weighing, .yard] d d3 :=
    (h2.step (Touches.onBridge _ _) (by decide)).step (Touches.changeBridge _ _) (by decide)
  exact Touches.ite ((h3.step (Touches.applyRelease _) (by decide)).step (Touches.finish _ _ _ _) (by decide)) h3

/-! ## Tickets, findings and reports -/

theorem Touches.testQueueFull (d : Dev) : Touches [.links] d d.testQueueFull := by
  unfold Dev.testQueueFull
  try dsimp only
  repeat' split
  all_goals
    repeat first
      | exact Touches.refl _ _
      | refine Touches.step ?_ (Touches.raise _ _ _) (by decide)

theorem Touches.testThreshold (d : Dev) (n : Nat) : Touches [.links] d (d.testThreshold n) := by
  unfold Dev.testThreshold
  try dsimp only
  repeat' split
  all_goals
    repeat first
      | exact Touches.refl _ _
      | refine Touches.step ?_ (Touches.raise _ _ _) (by decide)

theorem Touches.postTicket (d : Dev) (n : Nat) : Touches [.tickets, .links] d (d.postTicket n) := by
  refine Touches.step ?_ (Touches.testQueueFull _) (by decide)
  refine Touches.step ?_ (Touches.testThreshold _ _) (by decide)
  exact Touches.withTickets (Touches.refl _ _) _ ⟨rfl, rfl⟩ (by decide)

theorem Touches.clockSet (d : Dev) (n : Nat) : Touches [.clock, .links] d (d.clockSet n) := by
  refine Touches.step ?_ (Touches.onLink _ _ _) (by decide)
  exact Touches.withClock (Touches.refl _ _) _ (by decide)

theorem Touches.giveRate (d : Dev) (r : Option (Link × Baud)) (n : Nat) : Touches [.links] d (d.giveRate r n) := by
  unfold Dev.giveRate
  try dsimp only
  repeat' split
  all_goals
    repeat first
      | exact Touches.refl _ _
      | refine Touches.step ?_ (Touches.onLink _ _ _) (by decide)

/-- The report of a written operation. -/
theorem Touches.report (d : Dev) (r : Done) :
    Touches [.tickets, .links, .axle, .bridge, .weighing, .yard, .clock] d (d.report r) := by
  cases r with
  | nothing => exact Touches.refl _ _
  | weigh result causes ticket =>
    refine Touches.step ?_ (Touches.weighReport _ _) (by decide)
    split
    · refine Touches.step ?_ (Touches.postTicket _ _) (by decide)
      exact (Touches.raiseAll _ _ _).mono (by decide)
    · exact (Touches.raiseAll _ _ _).mono (by decide)
  | answer l st b => exact (Touches.finish _ _ _ _).mono (by decide)
  | ticketClear => exact (Touches.finish _ _ _ _).mono (by decide)
  | post n => exact Touches.withTickets (Touches.refl _ _) _ ⟨rfl, rfl⟩ (by decide)
  | setTime n o q => exact ((Touches.clockSet d n).mono (by decide)).step (Touches.finish _ _ _ _) (by decide)
  | siteSet q r => exact ((Touches.finish d _ _ _).mono (by decide)).step (Touches.giveRate _ _ _) (by decide)
  | commit g p q => exact ((Touches.finish d _ _ _).mono (by decide)).step (Touches.verifyStatus _ _) (by decide)
  | auditEnd a b c e q x =>
    simp only [Dev.report]
    split
    · exact ((Touches.finish d _ _ _).mono (by decide)).step (Touches.verifyStatus _ _) (by decide)
    · exact (Touches.finish d _ _ _).mono (by decide)
  | archive q => exact (Touches.finish _ _ _ _).mono (by decide)

/-- A finding reported: the status, the list of findings and the links. -/
theorem Touches.reportFinding (d : Dev) (f : Finding) : Touches [.status, .metro, .links] d (d.reportFinding f) := by
  unfold Dev.reportFinding
  extract_lets m d1
  have h1 : Touches [.status, .metro, .links] d d1 :=
    Touches.ite (Touches.refl _ _) (Touches.step
      (fun p hp => by cases p <;> first | rfl | exact ⟨rfl, rfl⟩ | exact absurd (by decide) hp)
      (Touches.verifyStatus _ _) (by decide))
  exact Touches.withMetro h1 _ ⟨rfl, rfl⟩ rfl rfl (by decide)

theorem Touches.reportTrail (d : Dev) (slot key : Nat) (f : SlotRead) (s : ReadSource) :
    Touches [.status, .metro, .links] d (d.reportTrail slot key f s) := by
  unfold Dev.reportTrail
  try dsimp only
  repeat' split
  all_goals
    repeat first
      | exact Touches.refl _ _
      | refine Touches.step ?_ (Touches.reportFinding _ _) (by decide)

theorem Touches.offerCounters (d : Dev) (fs : List Finding) : Touches [.store, .metro] d (d.offerCounters fs) := by
  unfold Dev.offerCounters
  split
  · exact Touches.refl _ _
  · rename_i e he
    exact Touches.withMetro ((Touches.offer he).mono (by decide)) _ ⟨rfl, rfl⟩ rfl rfl (by decide)

theorem Touches.sampleFindings (d : Dev) : Touches [.store, .metro, .links] d d.sampleFindings := by
  unfold Dev.sampleFindings
  split
  · exact Touches.refl _ _
  · extract_lets seq
    split
    · rename_i e he
      exact Touches.withMetro (Touches.offerTrail he) _ ⟨rfl, rfl⟩ rfl rfl (by decide)
    · exact (Touches.offerCounters _ _).mono (by decide)
    · exact Touches.refl _ _

theorem Touches.samplePoint (d : Dev) : Touches [.metro, .links] d d.samplePoint := by
  unfold Dev.samplePoint
  split
  · exact Touches.refl _ _
  · split
    · exact Touches.refl _ _
    · refine Touches.ite ?_ (Touches.withMetro (Touches.refl _ _) _ ⟨rfl, rfl⟩ rfl rfl (by decide))
      refine Touches.step ?_ (Touches.answerHandedOff _ _ _ _) (by decide)
      exact Touches.withMetro (Touches.refl _ _) _ ⟨rfl, rfl⟩ rfl rfl (by decide)

theorem Touches.sampleZero (d : Dev) (hs : List HandOff) : Touches [.metro, .links] d (d.sampleZero hs) := by
  unfold Dev.sampleZero
  try dsimp only
  repeat' split
  all_goals
    repeat first
      | exact Touches.refl _ _
      | refine Touches.step ?_ (Touches.endZeroCapture _ _) (by decide)
      | refine Touches.withMetro ?_ _ ⟨rfl, rfl⟩ rfl rfl (by decide)

theorem Touches.sampleMetrology (d : Dev) (hs : List HandOff) :
    Touches [.store, .metro, .links] d (d.sampleMetrology hs) := by
  unfold Dev.sampleMetrology
  try dsimp only
  repeat' split
  all_goals
    repeat first
      | exact Touches.refl _ _
      | refine Touches.step ?_ (Touches.sampleFindings _) (by decide)
      | refine Touches.step ?_ (Touches.samplePoint _) (by decide)
      | refine Touches.step ?_ (Touches.sampleZero _ _) (by decide)

/-! ## The working copy -/

theorem Touches.editWorking (d : Dev) (p : ParamSet) :
    Touches [.metro, .cells, .links, .weighing] d (d.editWorking p) := by
  unfold Dev.editWorking
  extract_lets old m d1 d2
  have h1 : Touches [.metro, .cells, .links, .weighing] d d1 :=
    Touches.withMetro (Touches.refl _ _) _ ⟨rfl, rfl⟩ rfl rfl (by decide)
  have h2 : Touches [.metro, .cells, .links, .weighing] d d2 := h1.step (Touches.followPorts _ _ _ _) (by decide)
  exact Touches.ite (h2.step (Touches.emptyHistories _) (by decide)) h2

theorem Touches.leaveMode (d : Dev) : Touches [.metro, .cells, .links, .weighing] d d.leaveMode := by
  unfold Dev.leaveMode
  extract_lets old was m d1 d2
  have h1 : Touches [.metro, .cells, .links, .weighing] d d1 :=
    Touches.withMetro (Touches.refl _ _) _ ⟨rfl, rfl⟩ rfl rfl (by decide)
  have h2 : Touches [.metro, .cells, .links, .weighing] d d2 := h1.step (Touches.followPorts _ _ _ _) (by decide)
  exact Touches.ite (h2.step (Touches.emptyHistories _) (by decide)) h2

end Sys2Proof.Machine
end

