-- ==== Sys2Proof/Tests/Slice0.lean ====
section
/-! SUPPORT. The model's own tests: ill-formed terms refused, the manual's worked cases, one step of commands, and for each
statement with hypotheses a state and operands that meet them. -/

namespace Sys2Proof.Tests

open Sys2Proof.Machine

-- One test at a time: side by side they take more threads than a limit on memory allows.
set_option Elab.async false

/-! ## Ill-formed terms -/

theorem test_wf_refuses_detection_above_48_bits : (Instr.detection .A 281474976710656).wf = false := by decide

theorem test_wf_refuses_warning_above_longest_record : (Instr.powerFailWarning 97).wf = false := by decide

theorem test_wf_refuses_power_on_above_longest_record : (Instr.powerOn 97 false).wf = false := by decide

theorem test_wf_refuses_short_identities :
    (Instr.visitOpen 0#8 [3#8] 1#8 0#16 0#8).wf = false ∧ (Instr.visitRead 0#8 0#8 (.identity [])).wf = false
      ∧ (Instr.tareRead 0#8 []).wf = false ∧ (Instr.tareDelete 0#8 []).wf = false
      ∧ (Instr.weigh 0#8 1#8 (List.replicate 18 0#8)).wf = false := by decide

theorem test_wf_refuses_record_read_on_lane : (Instr.recordRead .lane 0#8 0#8 1#32).wf = false := by decide

theorem test_wf_refuses_cell_read_of_255 : (Instr.cellRead 0#8 255#8).wf = false := by decide

theorem test_wf_refuses_frames_out_of_length :
    (Instr.frameGapTimeout .lane (List.replicate 125 0#8)).wf = false ∧ (Instr.frameDiscarded .lane []).wf = false
      ∧ (Instr.frameDiscarded .lane (List.replicate 125 0#8)).wf = false
      ∧ (Instr.unknownCommandFrame .lane [1#8]).wf = false := by decide +kernel

theorem test_wf_accepts_bounds :
    (Instr.detection .X 281474976710655).wf = true ∧ (Instr.powerFailWarning 96).wf = true
      ∧ (Instr.recordRead .inventory 0#8 0#8 1#32).wf = true ∧ (Instr.unknownCommandFrame .lane [1#8, 2#8]).wf = true := by
  decide

/-! ## The manual's worked cases -/

/-- Section 1.3.5: the cell value, both indications, and a tie below zero. -/
theorem test_worked_cell_value :
    cellArithmetic 2150000 12000 1258291 66355 = 162354 ∧ indicatedWeight .e20 412347 = 412400
      ∧ expandedIndication .e20 412347 = 412340 ∧ indicatedWeight .e20 (-100) = -200 := by decide

/-- Section 1.3.6: the filtered gross of the second to the fifth sample. -/
theorem test_worked_filter_sequence :
    meanInt (lastOf 4 [1003, 1006]) = 1005 ∧ meanInt (lastOf 4 [1003, 1006, 998]) = 1002
      ∧ meanInt (lastOf 4 [1003, 1006, 998, 1001]) = 1002 ∧ meanInt (lastOf 4 [1003, 1006, 998, 1001, 1010]) = 1004
      ∧ spanInt [1003, 1005, 1002, 1002, 1004] = 3 := by decide

/-- Section 3.7.1: a speed, the limit, a spacing and the three loads, axle 2 merged with axle 3. -/
theorem test_worked_pass :
    crossingSpeed 1000 120000 120200 = some 5000 ∧ speedLimitMm 10 = 2778
      ∧ (let axle := fun (m : Option Int) (b : Nat) =>
          (⟨0, none, some b, none, none, none, some ⟨50, 0, 30, .complete, m⟩, none, none, false, false⟩ : AxleRecord)
        axleSpacing (axle none 120200) (some 5000) (some 120800) (some 121000) = some 4000
        ∧ ((formLoads 34 [] [axle (some 61283) 1, axle none 2, axle (some 201517) 3]).map fun a => (a.load, a.merged))
          = [(some 61249, false), (some 70117, true), (some 70117, true)])
      ∧ reportedLoad .e20 61249 = 61200 ∧ reportedLoad .e20 70117 = 70200 := by decide

/-- An axle of a given speed and spacing. -/
def axleOf (speed : Option Nat) (spacing : Option Int) : AxleRecord :=
  ⟨1, some 0, some 1, none, speed, spacing, none, none, none, false, false⟩

/-- Section 4.2.1: the groups of the five axles, and with the fourth 2,600 mm behind. -/
theorem test_worked_groups :
    groupSizes 2500 0 0 [axleOf (some 2100) none, axleOf (some 2080) (some 3400), axleOf none none,
        axleOf (some 2050) (some 1280), axleOf (some 2060) (some 1310)] = [1, 1, 3]
      ∧ groupSizes 2500 0 0 [axleOf (some 2100) none, axleOf (some 2080) (some 3400), axleOf none none,
        axleOf (some 2050) (some 2600), axleOf (some 2060) (some 1310)] = [1, 1, 1, 2] := by decide

/-- Section 8.1.1: the encoding of 1 and the five reads. -/
theorem test_worked_store_word :
    encodeWord 1#32 = 0xF#39 ∧ readClass 0xF#39 = (.clean, some 1#32) ∧ readClass 0x7#39 = (.corrected, some 1#32)
      ∧ syndrome 0x7#39 = 3 ∧ readClass 0xE#39 = (.correctedCheck, some 1#32) ∧ readClass 0x27#39 = (.double, none)
      ∧ syndrome 0x27#39 = 6 ∧ syndrome (poisonWord 1#32) = 48 := by decide +kernel

/-- Section 11.2: the check of the nine bytes 0x31 to 0x39. -/
theorem test_worked_check :
    crc [0x31#8, 0x32#8, 0x33#8, 0x34#8, 0x35#8, 0x36#8, 0x37#8, 0x38#8, 0x39#8] = 0x29B1#16 := by decide +kernel

/-- Section 9.4.1: the gain of position (2, 3). -/
theorem test_worked_span : scaleFactor 1258291 400000 397512 = 1266167 := by decide

/-- Section 10.2: the judgments of points 2, 4 and 6, point 7 failing at 100,118 and passing in service, and the worst error. -/
theorem test_worked_audit :
    let u : Session := ⟨0, 13, .e20, 2, false, [], none⟩
    let judged := fun (u : Session) (k : PointKind) (kg : Nat) (filtered : Int) =>
      let p := judgePoint u ⟨k, 0, kg, 0, none⟩ (expandedIndication .e20 filtered) 0
      (p.indication, p.error, p.mpe, p.pass)
    judged u .loadUp 10000 100047 = (100040, 40, 100, true) ∧ judged u .loadUp 40000 400136 = (400140, 140, 200, true)
      ∧ judged u .deck 10000 99962 = (99960, -40, 100, true) ∧ judged u .deck 10000 100118 = (100120, 120, 100, false)
      ∧ judged { u with inService := true } .deck 10000 100118 = (100120, 120, 200, true) ∧ errorInE 140 .e20 = 7 := by
  decide

/-- Appendix A.1: the characters of an identity and its bytes. -/
theorem test_identity_characters :
    identityOfBytes ([3#8, 0x41#8, 0x42#8, 0x31#8] ++ List.replicate 13 0#8) = some [11, 12, 2]
      ∧ identityBytes [11, 12, 2] = [3#8, 0x41#8, 0x42#8, 0x31#8] ++ List.replicate 13 0#8 := by decide +kernel

/-! ## Small states -/

/-- The controller with its links accepting frames, the clock set, and nothing stored. -/
def live : Dev := { Dev.start [] ⟨1000, true⟩ ⟨false, false, false⟩ with phase := .running }

/-- A state with no command waiting. -/
def rest (d : Dev) : State := ⟨d, []⟩

/-- The controller after one command. -/
def after (c : Instr) (d : Dev) : Dev := match exec c ⟨d, []⟩ with | .next t => t.dev | _ => d

/-- The state after one command, or after one step. -/
def afterStep (s : State) : State := match step s with | .next t => t | _ => s

/-- A stable, valid sample of 397,512 tenths. -/
def good : SampleResult := { SampleResult.start with stable := true, invalid := Invalid.none, filtered := 397512 }

/-- A bridge state with a known axles-on count and a stable, valid last sample. -/
def onBridge (b : BridgeState) (count : Int) : Dev :=
  { live with bridge := { live.bridge with state := b, count := some count }, weighing := { live.weighing with last := good } }

/-- The identity AB1, and its bytes on a link. -/
def truck : Identity := [11, 12, 2]
def truckBytes : List Byte := [3#8, 0x41#8, 0x42#8, 0x31#8] ++ List.replicate 13 0#8

/-- A WEIGH of the truck in WAITING. -/
def request : Request := ⟨truck, .weighNext, .visit .first 7 false, none, 0, some 3000⟩
def waiting : Dev :=
  let d := onBridge .waiting 3
  { d with bridge := { d.bridge with request := some request },
           links := { d.links with lane := { d.links.lane with handedOff := some (0x21#8, 9#8) } } }

/-- A complete position sent to a port. -/
def cornerOf (port : Nat) : PosParam := ⟨some port, some 12000, some 1258291, some 65536⟩

/-- A complete parameter set of one deck with two cells, Max 60,000 kg, e 20 kg. -/
def fitted : ParamSet := { ((ParamSet.blank.setAt 0 (cornerOf 0)).setAt 1 (cornerOf 1)) with max := 60000, e := .e20, decks := 1, fourCells := false }

/-- Calibration mode, with the complete set as its working copy and its two ports OK with values. -/
def calibrating : Dev :=
  let d := onBridge .standing 3
  let port : PortRecord := ⟨some ⟨2150000, false⟩, true, true, 0, 200, 0, .ok⟩
  { d with metro := { d.metro with current := { fitted with max := 30000 }, working := some fitted, switchClosed := true },
           cells := (d.cells.setIfInBounds 0 port).setIfInBounds 1 port }

/-- A visit of the truck. -/
def visit : Visit :=
  { number := 7, identity := truck, direction := .receival, commodity := none, onePass := false, loadedFirst := true,
    state := .awaitingFirst, openedBy := .console, first := none, summary := none, heldReleased := false,
    overloadReturn := false, slot := 0 }

/-- A register with one visit. -/
def visited (v : Visit) : Dev := { live with yard := ⟨[v], 7, none⟩ }

/-- A stored tare of the truck. -/
def tare : TareEntry := ⟨truck, 140200, 900, .e20, 0, .verified, 5, 0⟩

/-- An OPEN CHECKED pass with one axle whose window has taken its fifty samples. -/
def axle : AxleRecord :=
  ⟨21, some 5, some 6, none, none, none, some ⟨50, 1800, 30, .running, none⟩, none, none, false, false⟩
def pass : Pass :=
  ⟨5, .opened, .checked, .pair, PassMarks.clear, some 34, [axle], 400, 421, none, none, none, none⟩
def passing : Dev :=
  let d := onBridge .entering 1
  { d with axle := ⟨100, [], some pass⟩ }

/-- An open audit session of the fitted set. -/
def session : Session := ⟨900, 13, .e20, 1, false, [], none⟩
def auditing (u : Session) : Dev := { live with metro := { live.metro with session := some u } }

theorem bridgeSample_next (d : Dev) : exec .bridgeSample (rest d) = .next (rest (after .bridgeSample d)) := rfl

theorem ready_live (l : Link) : live.ready l := by cases l <;> exact ⟨rfl, rfl, rfl, rfl⟩

/-! ## One step of a command -/

/-- R1, R2, R202: a frame whose bytes sum to zero gives its signed count and saturation mark; one more in a byte and it is discarded; one
begun before the scan's end is lost. -/
theorem test_sample_frame :
    ((after (.sampleFrame 3 [0xFF#8, 0xFF#8, 0xFF#8, 1#8, 2#8]) live).port 3).latest = some ⟨-1, true⟩
      ∧ ((after (.sampleFrame 3 [0xFF#8, 0xFF#8, 0xFF#8, 1#8, 3#8]) live).port 3).checkErrors = 1
      ∧ after (.sampleFrame 3 []) live = live := by decide +kernel

/-- R5: an OK port becomes SUSPECT at a stale sample. -/
theorem test_stale_sample :
    ((after .bridgeSample { calibrating with cells := calibrating.cells.setIfInBounds 0 ⟨some ⟨5, false⟩, false, false, 0, 9, 0, .ok⟩ }).port 0)
      = ⟨some ⟨5, false⟩, false, false, 1, 0, 0, .suspect⟩ := by decide +kernel

/-- R12: a set with no map gives UNMAPPED samples. -/
theorem test_blank_set_sample : (after .bridgeSample live).weighing.last.invalid.unmapped = true := by decide +kernel

/-- R45, R49: a pair at sensors A and B leaves the queue empty and one axle with its speed in an OPEN CHECKED pass. -/
theorem test_pair_of_detections :
    let d := after (.detection .B 120200) (after (.detection .A 120000) (onBridge .empty 0))
    d.axle.queue = [] ∧ (d.axle.pass.map fun p => (p.openedAt, p.axles.map (·.speed))) = some (120000, [some 5000])
      ∧ d.bridge.count = some 1 := by decide +kernel

/-- R34: ZERO on an occupied bridge is NOT_EMPTY. -/
theorem test_zero_not_empty :
    (after (.zero 4#8) (onBridge .standing 3)).links.console.tx = [⟨9#8, 4#8, .notEmpty, .none⟩] := by decide +kernel

/-- R36: a WEIGH on an empty bridge is NOT_STANDING. -/
theorem test_weigh_not_standing :
    (after (.weigh 4#8 1#8 truckBytes) (onBridge .empty 0)).links.lane.tx = [⟨0x21#8, 4#8, .notStanding, .none⟩] := by
  decide +kernel

/-- R153: CAL ENTER with the switch open is SWITCH_OPEN. -/
theorem test_cal_enter_switch_open :
    (after (.calEnter 4#8) live).links.service.tx = [⟨0x61#8, 4#8, .switchOpen, .none⟩] := by decide +kernel

/-- R128: TICKET TAKE of an empty queue is EMPTY. -/
theorem test_ticket_take_empty :
    ((after (.ticketTake 4#8 0#8) live).links.inventory.tx.map (·.status)) = [.empty] := by decide +kernel

/-- Section 11.4.1: the causes of the lane link through one truck, and the four STATUS answers. -/
theorem test_attention_through_one_truck :
    let d := ((((live.raise .lane (.bridgeState .entering (some 0))).raise .lane (.beamChange .entry true)).raise .lane
      (.beamChange .entry false)).raise .lane (.passClosed 5 .checked .normal 6 PassMarks.clear)).raise .lane
      (.bridgeState .standing (some 6))
    let d := after (.status .lane 4#8) (after (.status .lane 3#8) (after (.status .lane 2#8) (after (.status .lane 1#8) d)))
    (d.links.lane.tx.map fun r => match r.body with
        | .status (some p) left _ _ _ => (r.status, some p.cause, p.repeats, left)
        | _ => (r.status, none, 0, 0))
      = [(.ok, some (.passClosed 5 .checked .normal 6 PassMarks.clear), 0, 2),
         (.ok, some (.beamChange .entry false), 1, 1), (.ok, some (.bridgeState .standing (some 6)), 1, 0),
         (.none, none, 0, 0)] := by decide +kernel

/-- R144: VISIT OPEN is answered when its record is written, with the visit number, and the record's copy reads CLEAN. -/
theorem test_visit_open_written :
    let d := after .storeRecordWritten (after (.visitOpen 4#8 truckBytes 1#8 0#16 0#8) live)
    d.links.console.tx = [⟨2#8, 4#8, .ok, .number 1⟩] ∧ d.links.console.slot = none
      ∧ findSlot (readCopy d.nv .visits 0 1) = .words (visitWords { visit with number := 1 } none) := by decide +kernel

/-- R184, R197: SET TIME sets the clock at admission and is answered when its record is written, the clock set once more (log entry
10). -/
theorem test_set_time_written :
    (after (.setTime 4#8 5000#32) live).clock = ⟨5000, true⟩ ∧
    let d := after .storeRecordWritten (after .clockSecond (after (.setTime 4#8 5000#32) live))
    d.clock = ⟨5000, true⟩ ∧ d.links.console.tx = [⟨0x0A#8, 4#8, .ok, .timeSet (some 1000) 1⟩] := by decide +kernel

/-- R145: a warning with two words written leaves the rest to the hold-up supply and poisons the completion word. -/
theorem test_power_fail_poisons :
    let d := after (.powerFailWarning 2) (after (.visitOpen 4#8 truckBytes 1#8 0#16 0#8) live)
    d.phase = .powerFail ∧ findSlot (readCopy d.nv .visits 0 1) = .lost := by decide +kernel

/-- R146, R149: power-on and a scan of a store never written give the blank set and START. -/
theorem test_blank_start :
    let d := after .startUpScanEnd (after (.powerOn 0 true) live)
    d.phase = .startWrites ∧ d.metro.current = ParamSet.blank ∧ d.bridge.state = .start ∧ d.clock = ⟨0, false⟩ := by
  decide +kernel

/-! ## Witnesses: the hypotheses of each statement, met -/

/-- A state with a command waiting, words in the store, entries queued, detections, causes and counters at their bounds. -/
def busy : State :=
  let d := onBridge .standing 255
  ⟨{ d with
      nv := [(5, 1#39), (130767, 3#39)],
      store := { d.store with queue := List.replicate 16 (.scrub 5), waiting := [.scrub 6], corrected := 65535, sweeps := 65535 },
      axle := ⟨281474976710655, [⟨.A, 5⟩, ⟨.A, 281474976710655⟩],
        some { pass with state := .closed, gap := 1000, samples := 65535, axles := [{ axle with crossingSample := 65535 }] }⟩,
      metro := { d.metro with current := fitted },
      weighing := { d.weighing with zOp := -12000, filterHist := [1], stabHist := [2], baseline := [3], samples := 65535, tracking := 100 },
      yard := ⟨[visit], 7, none⟩, tickets := { d.tickets with queue := [⟨1, true, none, 255, 0⟩], tares := [tare, { tare with slot := 255 }] },
      links := { d.links with
        console := { d.links.console with
          tx := List.replicate 8 ⟨9#8, 9#8, .ok, .none⟩, waiting := [⟨9#8, 9#8, .ok, .none⟩] },
        lane := { d.links.lane with causes := [⟨.wrongWay, 255⟩, ⟨.bridgeState .standing (some 3), 0⟩], errors := 65535 } } },
    [.scrubWrite, .clockSecond]⟩

theorem witness_StepRunsFrontCommand :
    busy.pending = .scrubWrite :: [.clockSecond] ∧ (rest live).pending = [] := by decide

theorem witness_StepKeepsStoreCanonical : busy.storeCanonical ∧ step busy = .next (afterStep busy) :=
  ⟨by unfold State.storeCanonical; decide +kernel, rfl⟩

theorem witness_StepKeepsWriteQueueBounded : busy.writeQueueBounded ∧ step busy = .next (afterStep busy) :=
  ⟨by unfold State.writeQueueBounded; decide +kernel, rfl⟩

theorem witness_StepKeepsDetectionsOrdered : busy.detectionsOrdered ∧ step busy = .next (afterStep busy) :=
  ⟨by unfold State.detectionsOrdered; decide +kernel, rfl⟩

theorem witness_StepKeepsZeroWithinLimit : busy.zeroWithinLimit ∧ step busy = .next (afterStep busy) :=
  ⟨by unfold State.zeroWithinLimit; decide +kernel, rfl⟩

/-- A cause pending with its repeat count at 255, and kinds of one link below, between and above those that are pending. -/
theorem witness_StepKeepsCausesOrdered :
    (busy.causesOrdered ∧ step busy = .next (afterStep busy))
    ∧ (let before := (busy.dev.links.get .lane).causes
       before.Pairwise (fun a b => priority .lane a.cause < priority .lane b.cause)
       ∧ (⟨.wrongWay, 255⟩ ∈ before ∧ ⟨.bridgeState .standing (some 3), 0⟩ ∈ before)
       ∧ ([.sensorMismatch none, .wrongWay, .beamChange .exit true, .bridgeState .leaving none].map fun c =>
            ((busy.dev.raise .lane c).links.get .lane).causes.map fun p => (priority .lane p.cause, p.repeats))
          = [[(1, 0), (3, 255), (5, 0)], [(3, 255), (5, 0)], [(3, 255), (4, 0), (5, 0)], [(3, 255), (5, 1)]])
    ∧ busy.dev.attentionLine .lane = true ∧ live.attentionLine .lane = false :=
  ⟨⟨by intro l; cases l <;> decide +kernel, rfl⟩, by decide +kernel⟩

theorem witness_StepKeepsCountersBounded :
    (busy.countersBounded ∧ busy.historiesBounded ∧ busy.transmitBounded) ∧ step busy = .next (afterStep busy) :=
  ⟨⟨⟨by decide +kernel, by decide, by decide, by decide, by decide, by decide, by intro l; cases l <;> decide, by decide,
      fun k h => by cases h; decide, fun p h => by cases h; decide⟩,
    by unfold State.historiesBounded; decide, by intro l; cases l <;> decide +kernel⟩, rfl⟩

/-- A step of a full controller, and the end of the scan of a store that holds a visit. -/
theorem witness_StepKeepsTablesBounded :
    ((busy.storeCanonical ∧ busy.tablesBounded) ∧ step busy = .next (afterStep busy))
    ∧ (let s : State := ⟨Dev.start (Memory.writeAll [] (recordWords (visitSpec visit none) 1 1)) ⟨0, true⟩ ⟨false, false, false⟩,
        [.startUpScanEnd]⟩
       (s.storeCanonical ∧ s.tablesBounded) ∧ step s = .next (afterStep s) ∧ (afterStep s).dev.yard.visits = [visit]) :=
  ⟨⟨⟨by unfold State.storeCanonical; decide +kernel, by unfold State.tablesBounded; decide +kernel⟩, rfl⟩,
    ⟨by unfold State.storeCanonical; decide +kernel, by unfold State.tablesBounded; decide +kernel⟩, rfl, by decide +kernel⟩

/-- A pass OPEN in ENTERING, and a WEIGH in RECORDING whose record is the last of its operation. -/
theorem witness_StepKeepsOpenPassEntering :
    (let s : State := ⟨passing, [.passGapTimeout]⟩
     s.openPassEntering ∧ step s = .next (afterStep s))
    ∧ (let s : State := ⟨{ onBridge .recording 3 with
         store := { live.store with queue := [.record (visitSpec visit none) 1 1 (some (.weigh ⟨.ok, none⟩ [] none))] } },
         [.storeRecordWritten]⟩
       s.openPassEntering ∧ step s = .next (afterStep s)) :=
  ⟨⟨⟨fun _ _ _ => rfl, by decide +kernel, fun h => absurd rfl h⟩, rfl⟩,
    ⟨⟨fun _ h => (nomatch h), by decide +kernel, fun _ => ⟨rfl, by decide +kernel⟩⟩, rfl⟩⟩

theorem witness_OnlyTheirEventsChangeStoreClockZero :
    (Instr.patrol.writesStore = false ∧ exec .patrol (rest live) = .next (rest (after .patrol live)))
    ∧ (Instr.patrol ≠ .clockSecond ∧ Instr.patrol ≠ .storeRecordWritten ∧ (∀ g x, Instr.patrol ≠ .setTime g x)
      ∧ ∀ n b, Instr.patrol ≠ .powerOn n b)
    ∧ (∀ g, Instr.bridgeSample ≠ .zero g) ∧ Instr.bridgeSample ≠ .zeroTracking ∧ Instr.bridgeSample ≠ .calZeroComplete
      ∧ (∀ g, Instr.bridgeSample ≠ .calExitCommit g) ∧ Instr.bridgeSample.isStartUp = false
      ∧ exec .bridgeSample (rest live) = .next (rest (after .bridgeSample live)) :=
  ⟨⟨rfl, rfl⟩, ⟨nofun, nofun, nofun, nofun⟩, nofun, nofun, nofun, nofun, rfl, bridgeSample_next _⟩

theorem witness_NumbersAreGivenAtBridgeSamples :
    (Instr.patrol ≠ .bridgeSample ∧ Instr.patrol.isStartUp = false ∧ exec .patrol (rest live) = .next (rest (after .patrol live)))
      ∧ exec .bridgeSample (rest live) = .next (rest (after .bridgeSample live)) := ⟨⟨nofun, rfl, rfl⟩, bridgeSample_next _⟩

theorem witness_ParametersChangeAtCommits :
    Instr.patrol.isStartUp = false ∧ exec .patrol (rest live) = .next (rest (after .patrol live))
      ∧ (∀ g, Instr.patrol ≠ .calExitCommit g) ∧ (∀ g i v, Instr.patrol ≠ .siteSet g i v)
      ∧ (∀ g, Instr.patrol ≠ .auditEnd g) := ⟨rfl, rfl, nofun, nofun, nofun⟩

theorem witness_ClosedLinksTakeNoCommands :
    (Instr.zero 4#8).frame? = some (.console, 9#8, 4#8)
      ∧ ((rest { live with phase := .scanning }).dev.phase ≠ .running
        ∧ ((after (.lineBreak .console) live).links.get .console).breakHeld = true) := by decide +kernel

theorem witness_BusyAndUnknownFramesAreAnswered :
    (let d := after (.visitOpen 3#8 truckBytes 1#8 0#16 0#8) live
     (Instr.zero 4#8).wf = true ∧ (Instr.zero 4#8).frame? = some (.console, 9#8, 4#8) ∧ d.phase = .running
       ∧ (d.links.get .console).breakHeld = false ∧ (d.links.get .console).slot ≠ none
       ∧ (busy.dev.phase = .running ∧ (busy.dev.links.get .console).breakHeld = false
         ∧ (busy.dev.links.get .console).waiting ≠ []))
    ∧ (live.phase = .running ∧ (live.links.get .lane).breakHeld = false
      ∧ (bodyLengths .lane (0x02#8).toNat).contains (([] : List Byte).length + 2) = false
      ∧ (bodyLengths .lane (0x22#8).toNat).contains ([0#8].length + 2) = false)
    ∧ live.ready .service ∧ 0#8 ≠ 1#8 ∧ 3#8 ≠ 2#8 :=
  ⟨by decide +kernel, by decide +kernel, ready_live _, by decide⟩

theorem witness_OutOfRangeFieldsAnswerRange :
    (live.ready .lane ∧ live.ready .console ∧ live.ready .inventory ∧ live.ready .service)
      ∧ 24 < (25#8).toNat ∧ truckBytes.length = 17 ∧ 3#8 ≠ 1#8 ∧ 3#8 ≠ 2#8 ∧ 99999999 < (100000000#32).toNat
      ∧ 4 < (5#8).toNat ∧ 999 < (1000#16).toNat ∧ 18 ≤ (18#8).toNat ∧ (254#8).toNat ≤ 254 ∧ 2 ≤ (2#8).toNat
      ∧ 200000 < (200001#32).toNat ∧ 71 < (72#8).toNat ∧ 44 < (45#8).toNat ∧ 4 < (5#8).toNat ∧ 5 < (6#8).toNat
      ∧ (List.replicate 17 0#8).length = 17 ∧ identityOfBytes (List.replicate 17 0#8) = none
      ∧ ((List.replicate 16 0x41#8).length = 16 ∧ identityOfBytes (16#8 :: List.replicate 16 0x41#8) ≠ none)
      ∧ live.metro.site.set? (1#8).toNat (121#32).toInt = none ∧ live.metro.lastSeq < (1#32).toNat
      ∧ (calibrating.metro.working = some fitted ∧ fitted.set? (3#8).toNat (5#32).toInt = none
        ∧ fitted.decks < (2#8).toNat ∧ (4#8).toNat ≤ 4 ∧ 1#32 ≠ 0#32)
      ∧ ((auditing session).metro.session = some session ∧ session.waiting = none ∧ session.points.length < 24
        ∧ pointKindOfByte 1#8 = some .zero ∧ pointKindOfByte 2#8 = some .loadUp ∧ pointKindOfByte 4#8 = some .deck
        ∧ session.decks < (2#8).toNat) :=
  ⟨⟨ready_live _, ready_live _, ready_live _, ready_live _⟩, by decide +kernel⟩

theorem witness_BridgeChangeRaisesCause :
    let d := onBridge .standing 3
    (Instr.bridgeRelease 4#8).isStartUp = false
      ∧ exec (.bridgeRelease 4#8) (rest d) = .next (rest (after (.bridgeRelease 4#8) d))
      ∧ (after (.bridgeRelease 4#8) d).bridge.state ≠ d.bridge.state := ⟨rfl, rfl, by decide +kernel⟩

/-- A word for each case of R136: clean, check bit 0, a data bit, a syndrome beyond 38, an even pair. -/
theorem witness_WordIsClassedBySyndrome :
    (syndrome 0#39 = 0 ∧ overallParity 0#39 = false) ∧ (syndrome 1#39 = 0 ∧ overallParity 1#39 = true)
      ∧ (syndrome (1#39 <<< 38) = 38 ∧ overallParity (1#39 <<< 38) = true)
      ∧ (39 ≤ syndrome (encodeWord 0#32 ^^^ (1#39 <<< 38) ^^^ (1#39 <<< 1) ^^^ (1#39 <<< 16))
        ∧ overallParity (encodeWord 0#32 ^^^ (1#39 <<< 38) ^^^ (1#39 <<< 1) ^^^ (1#39 <<< 16)) = true)
      ∧ (1 ≤ syndrome 3#39 ∧ overallParity 3#39 = false) := by decide +kernel

theorem witness_CodePlacesCorrectsAndDetects : 31 < 32 ∧ 5 < 6 ∧ 0 < 39 ∧ 38 < 39 ∧ 0 ≠ 38 := by decide

/-- A summary, a visit, a ticket and a weighing record at the bounds of their fields. -/
def fullSummary : AxleSummary :=
  ⟨2 ^ 48 - 1, 65535, .e100, List.replicate 24 ⟨1, -4194303⟩, 10, ⟨200000, 200000, 200000, 200000⟩, 200000,
    ⟨true, true, true, true, true, true⟩, ⟨true, true, true, true⟩⟩
def fullVisit : Visit :=
  { visit with identity := List.replicate 16 37, commodity := some 999, state := .held, openedBy := .auto,
               first := some ⟨99999999, 16777215, 4294967294, .e5, 65535, .integrity⟩, summary := some fullSummary, slot := 63 }
def fullTicket : Ticket :=
  ⟨99999999, 65535, List.replicate 16 37, .outturn, 999, 16777215, .e100, .failed, 65535, 99999999, 4294967294, 0, .e5,
    .pending, 65535, true, 99999999, 4294967294, false, false, ⟨true, true, true, true⟩, true, true, true, some fullSummary⟩
def fullWeighing : WeighingRecord := ⟨99999999, List.replicate 16 37, 4294967294, -8388608, .e100, .integrity, .unattached, 65535, some 65535⟩

theorem fullSummary_fits : fullSummary.fits := by unfold AxleSummary.fits; decide +kernel

theorem fullIdentity_ok : identityOk (List.replicate 16 37) := by unfold identityOk; decide +kernel

/-- One record of each trail kind at the bounds of its fields. -/
def fullTrail : List TrailBody :=
  [.calCommit 200000 .e5 .pending 200000 .e100 71 65535, .param 71 (some 58982) (some 72090), .param 9 none (some (-8388608)),
    .auditResult false true true true 24 .e20 0xFFFF#16 4294967294 65535, .siteChange 44 9600 115200,
    .timeSet none 4294967294, .integrityEvent .commitCut .read 134217727, .archive 134217727 511 511]

theorem fullTrail_fits : ∀ b ∈ fullTrail, (⟨134217727, some 4294967294, 65535, b⟩ : TrailRecord).fits := by
  intro b hb
  simp only [fullTrail, List.mem_cons, List.not_mem_nil, or_false] at hb
  rcases hb with rfl | rfl | rfl | rfl | rfl | rfl | rfl | rfl <;>
    simp [TrailRecord.fits, TrailBody.fits, clockOk] <;> decide

theorem witness_TrailRecordsReadBack :
    (∀ b ∈ fullTrail, (⟨134217727, some 4294967294, 65535, b⟩ : TrailRecord).fits) ∧ fullTrail.length = 8 :=
  ⟨fullTrail_fits, rfl⟩

theorem witness_WeighingsTaresAndBlocksReadBack :
    (fullWeighing.fits ∧ ({ tare with identity := List.replicate 16 37 } : TareEntry).fits)
      ∧ fitted.fits ∧ (65535 : Nat) < 2 ^ 16 ∧ SiteSettings.defaults.fits ∧ (134217727 : Nat) < 2 ^ 27 := by
  refine ⟨⟨⟨fullIdentity_ok, by unfold weightOk; decide, by unfold clockOk; decide, by decide, by intro v h; cases h; decide⟩,
    ⟨fullIdentity_ok, by unfold plainWeightOk; decide, by unfold clockOk; decide, by decide⟩⟩,
    ⟨by decide, by decide, by decide, by decide, by decide, by decide, ?_⟩, by decide, ?_, by decide⟩
  · intro q hq
    have h : q = cornerOf 0 ∨ q = cornerOf 1 ∨ q = PosParam.blank := by
      revert q; decide +kernel
    rcases h with rfl | rfl | rfl <;> simp [cornerOf, PosParam.blank]
  · unfold SiteSettings.fits; decide +kernel

theorem witness_VisitsAndTicketsReadBack :
    fullVisit.fits ∧ (∀ n, some 99999999 = some n → numberOk n) ∧ fullTicket.fits := by
  refine ⟨⟨fullIdentity_ok, ?_, ?_, ?_⟩, ?_, ⟨fullIdentity_ok, by decide, by decide, by decide, by decide, ?_, ?_, by decide,
    by decide, by unfold numberOk; decide, by unfold numberOk; decide, by unfold clockOk; decide, by unfold clockOk; decide, ?_⟩⟩
  · intro c h; cases h; decide
  · intro f h; cases h; unfold plainWeightOk numberOk clockOk; decide
  · intro s h; cases h; exact fullSummary_fits
  · intro n h; cases h; unfold numberOk; decide
  · unfold plainWeightOk; decide
  · unfold plainWeightOk; decide
  · intro s h; cases h; exact fullSummary_fits

theorem witness_WrittenRecordReadsBack :
    let spec := countersSpec 65535 .integrity 134217727
    Memory.wf [(0, 1#39)] = true ∧ 1 ≤ spec.kind ∧ spec.kind ≤ 7 ∧ 3 ≤ 3 ∧ spec.key < 2 ^ 27
      ∧ spec.body.length + 2 ≤ spec.region.words := by decide +kernel

theorem witness_CrossingsAreClassedByTable :
    (-255 : Int) ≤ 254 + 1 ∧ (254 : Int) + 1 ≤ 255 ∧ (onBridge .empty 0).bridge.state = .empty
      ∧ live.bridge.state = .start ∧ (onBridge .standing 3).bridge.state ≠ .empty
      ∧ (onBridge .standing 3).bridge.state ≠ .start := by decide +kernel

/-- Limits and weights on both sides of each line of R72's table, a summary's groups, and an entry for each line of R105, at the line
itself. -/
theorem witness_JudgmentsFollowTables :
    ((20000 : Nat) ≠ 0 ∧ (20000 : Int) ≤ (20000 : Nat) ∧ ((20000 : Nat) : Int) < 21000
      ∧ (100 : Int) * (21000 - (20000 : Nat)) ≤ (20000 : Nat) * (5 : Nat)
      ∧ ¬ (100 : Int) * (21001 - (20000 : Nat)) ≤ (20000 : Nat) * (5 : Nat))
    ∧ ({ fullSummary with groups := [⟨1, 5⟩, ⟨4, 6⟩, ⟨5, 7⟩] } : AxleSummary).groups = [⟨1, 5⟩] ++ ⟨4, 6⟩ :: [⟨5, 7⟩]
    ∧ tare.generation ≠ 1 ∧ (tare.generation = 0 ∧ 899 < tare.time)
      ∧ (tare.time ≤ 900 + 86401 ∧ 1 * 86400 < 900 + 86401 - tare.time)
      ∧ (tare.time ≤ 900 + 86400 ∧ 900 + 86400 - tare.time ≤ 1 * 86400)
      ∧ (∀ e ∈ ({ Tickets.start with tares := [tare] } : Tickets).tares, e.identity ≠ [1])
      ∧ (10000 : Int) ≤ 5000 * Interval.e20.kg ∧ 5000 * (Interval.e20.kg : Int) < 100001
      ∧ (400000 : Int) ≤ 20000 * Interval.e20.kg ∧ 20000 * (Interval.e20.kg : Int) < 400001 := by decide +kernel

/-- A zero capture of the calibrated set with its hundred samples taken, and the command in its slot. -/
def zeroed (count : Nat) : Dev :=
  { calibrating with
    bridge := { calibrating.bridge with state := .empty },
    metro := { calibrating.metro with zeroCapture := some ⟨count, Vector.replicate 16 1200000⟩ },
    links := { calibrating.links with service := { calibrating.links.service with slot := some ⟨0x64#8, 9#8, false⟩ } } }

/-- A frame that sums to zero, and the two ways a frame fails, in both phases that take samples. -/
theorem witness_SampleFrameUpdatesPort :
    live.phase = .running ∧ { live with phase := .startWrites }.phase = .startWrites
      ∧ (0xFF#8 + 0#8 + 0#8 + 1#8 + 0#8 : Byte) = 0#8 ∧ [1#8].length ≠ 5
      ∧ [1#8, 0#8, 0#8, 0#8, 0#8].foldl (· + ·) 0#8 ≠ 0#8 := by decide +kernel

theorem witness_BridgeSampleComputesResult :
    calibrating.phase = .running
    ∧ (let d := { calibrating with cells := calibrating.cells.map fun r =>
          { r with state := .suspect, arrival := false, fails := 9 } }
       d.inForce.inUse 0 = true ∧ (d.port 0).state = .suspect ∧ (d.port 0).arrival = false ∧ 9 ≤ (d.port 0).fails
         ∧ (after .bridgeSample d).links.service.causes.any (fun c => c.cause == .cellState 1 .fault) = true) := by decide +kernel

/-- The calibrated set at a bridge state, a stable load on the deck less Z_op: 320,716 tenths. -/
def loaded (b : BridgeState) (zOp : Int) : Dev :=
  let d := onBridge b 3
  { d with metro := { calibrating.metro with working := none, current := fitted }, cells := calibrating.cells,
           weighing := { d.weighing with samples := 200, zOp := zOp, stabHist := List.replicate 200 (320716 - zOp) } }

/-- A stable load and an empty deck in START, EMPTY, STANDING and LEAVING, with a count of 0 and of 3; an unstable sample; an OPEN pass. -/
theorem witness_BridgeSampleMovesBridge :
    (∀ b z, (loaded b z).takesEvents) ∧ (∀ b z, b ≠ .waiting → (loaded b z).bridge.state ≠ .waiting)
    ∧ (let x := (after .bridgeSample (loaded .start 0)).weighing.last
       x.stable = true ∧ ¬ x.filtered < 200 * ((loaded .start 0).inForce.e.kg : Int))
    ∧ (let x := (after .bridgeSample (loaded .start 320716)).weighing.last
       x.stable = true ∧ x.filtered < 200 * ((loaded .start 320716).inForce.e.kg : Int))
    ∧ (let x := (after .bridgeSample (loaded .empty 0)).weighing.last
       x.stable = true ∧ ¬ x.filtered < 200 * ((loaded .empty 0).inForce.e.kg : Int))
    ∧ (let x := (after .bridgeSample (loaded .leaving 320716)).weighing.last
       x.stable = true ∧ x.filtered < 200 * ((loaded .leaving 320716).inForce.e.kg : Int)
         ∧ (loaded .leaving 320716).bridge.count ≠ some 0 ∧ (onBridge .standing 0).bridge.count = some 0)
    ∧ ((after .bridgeSample live).weighing.last.stable = false ∧ live.bridge.state = .start)
    ∧ (let d : Dev := { loaded .entering 0 with axle := passing.axle }
       d.axle.pass = some pass ∧ pass.state = .opened ∧ (loaded .entering 0).axle.pass = none)
    ∧ live.metro.findings = [] := by
  refine ⟨fun b z => Or.inr rfl, fun b z h => h, ?_⟩
  decide +kernel

/-- A waiting point of a session, with its command handed off. -/
def pointing (d : Dev) : Dev :=
  { d with metro := { d.metro with session := some { session with waiting := some ⟨.loadUp, 0, 32000, 0, none⟩ } },
           links := { d.links with service := { d.links.service with handedOff := some (0x68#8, 9#8) } } }

/-- A finding on the integrity list, with the trail's last number and the write queue as given. -/
def finding (last : Nat) (queue : List QueueEntry) : Dev :=
  { live with metro := { live.metro with findings := [⟨.lostRecord, 5, .patrol⟩], lastSeq := last },
              store := { live.store with queue := queue } }

/-- A point at a stable load and at an invalid sample; a zero capture at each of its endings and at a count of 99; a finding with room,
with the trail full and with the queue full, at the count of 479 unarchived. -/
theorem witness_BridgeSampleServesMetrology :
    (let w : WaitingPoint := ⟨.loadUp, 0, 32000, 0, none⟩
     let u : Session := { session with waiting := some w }
     let d := pointing (loaded .standing 0)
     (d.takesEvents ∧ (pointing live).takesEvents)
       ∧ (d.metro.session = some u ∧ u.waiting = some w ∧ d.metro.zeroCapture = none
       ∧ d.links.service.handedOff = some (0x68#8, 9#8) ∧ (pointing live).metro.session = some u
       ∧ (let x := (after .bridgeSample d).weighing.last
          x.invalid.any = false ∧ x.range = .within ∧ x.stable = true)
       ∧ (after .bridgeSample (pointing live)).weighing.last.invalid.any = true))
    ∧ (let z : ZeroCapture := ⟨99, Vector.replicate 16 1200000⟩
       (∀ n, (zeroed n).takesEvents)
       ∧ ((zeroed 99).metro.zeroCapture = some z ∧ z.count < 100 ∧ (zeroed 99).metro.working = some fitted
       ∧ (zeroed 99).metro.session = none ∧ (zeroed 99).links.service.slot = some ⟨0x64#8, 9#8, false⟩
       ∧ (after .bridgeSample (zeroed 99)).bridge.state = .empty
       ∧ (after .bridgeSample (zeroed 99)).metro.zeroCapture.map (·.count) = some 100
       ∧ (after .bridgeSample { zeroed 99 with bridge := { live.bridge with state := .standing } }).bridge.state ≠ .empty
       ∧ ((after .bridgeSample { zeroed 99 with cells := live.cells }).port 0).latest = none
       ∧ (after .bridgeSample { zeroed 99 with
           cells := calibrating.cells.setIfInBounds 0 ⟨some ⟨5, true⟩, true, true, 0, 9, 0, .ok⟩ }).weighing.last.saturated = true))
    ∧ ((finding 479 []).takesEvents ∧ (finding 479 []).metro.findings = ⟨.lostRecord, 5, .patrol⟩ :: []
      ∧ (finding 479 []).bridge.state ≠ .waiting ∧ (finding 479 []).trailHasRoom 1 ∧ (finding 479 []).hasRoom 2
      ∧ (finding 479 []).metro.lastSeq - (finding 479 []).metro.boundary < 480
      ∧ 480 ≤ (finding 479 []).metro.lastSeq + 1 - (finding 479 []).metro.boundary
      ∧ ¬ (finding 511 []).trailHasRoom 1 ∧ (finding 511 []).hasRoom 1
      ∧ ¬ (finding 479 (List.replicate 15 (.scrub 5))).hasRoom 2 ∧ ¬ (finding 511 (List.replicate 16 (.scrub 5))).hasRoom 1) := by
  refine ⟨⟨⟨Or.inr rfl, Or.inr rfl⟩, by decide +kernel⟩, ⟨fun n => Or.inr rfl, by decide +kernel⟩, Or.inr rfl, ?_⟩
  unfold Dev.trailHasRoom Dev.hasRoom
  decide +kernel

/-- A request in WAITING at a bridge whose conditions are all unmet, and one whose next sample meets them. -/
theorem witness_WaitingSampleCapturesOrWaits :
    let d : Dev := { waiting with metro := calibrating.metro, cells := calibrating.cells,
                                  weighing := { waiting.weighing with samples := 200, stabHist := List.replicate 200 320716 } }
    waiting.phase = .running ∧ waiting.bridge.state = .waiting ∧ waiting.bridge.request = some request
      ∧ (after .bridgeSample waiting).bridge.state = .waiting
      ∧ (d.phase = .running ∧ d.bridge.state = .waiting ∧ d.bridge.request = some request
        ∧ d.metro.findings = []
        ∧ (after .bridgeSample d).weighing.last.stable = true ∧ (after .bridgeSample d).bridge.state ≠ .waiting) := by
  decide +kernel

/-- A CHECKED pass whose last axle is COMPLETE, the axle before it without an M, in one group and in two; an UNCHECKED pass. -/
theorem witness_PassWindowsAndCloseFollowRules :
    let done : AxleRecord := { axle with window := some ⟨50, 1800, 30, .complete, some 60⟩ }
    let short : AxleRecord := { axle with window := some ⟨9, 0, 0, .cut, none⟩ }
    let p : Pass := { pass with axles := [short, done] }
    (passing.phase = .running ∧ passing.axle.pass = some pass ∧ pass.state = .opened)
      ∧ ({ passing with axle := ⟨100, [], some p⟩ } : Dev).axle.pass = some p
      ∧ pass.kind = .checked ∧ pass.m0 = some 34 ∧ p.axles.getLast? = some done
      ∧ done.window = some ⟨50, 1800, 30, .complete, some 60⟩ ∧ 100 * passing.metro.site.gapTimeout ≤ pass.gap
      ∧ (∀ b ∈ p.axles, (b.window.map (·.state)) ≠ some .running)
      ∧ p.axles = [] ++ [short] ++ done :: [] ∧ short.window.bind (·.mean) = none ∧ done.window.bind (·.mean) = some 60
      ∧ p.axles = [] ++ short :: [done] ∧ [done] ≠ []
      ∧ (let q : Pass := { pass with kind := .unchecked, m0 := none, axles := [{ axle with window := none }] }
         q.kind = .unchecked ∧ 100 * passing.metro.site.gapTimeout ≤ q.gap ∧ ∀ a ∈ q.axles, a.window = none) := by
  decide +kernel

theorem witness_ZeroCommandsMoveZero :
    let d := onBridge .empty 0
    let d : Dev := { d with metro := { d.metro with current := fitted },
                            weighing := { d.weighing with last := { good with filtered := 12000 }, tracking := 100 } }
    d.ready .console ∧ d.metro.working = none ∧ d.metro.session = none ∧ d.bridge.state = .empty
      ∧ d.weighing.last.invalid.any = false ∧ d.weighing.last.range ≠ .over ∧ d.weighing.last.stable = true
      ∧ ((d.weighing.zOp + d.weighing.last.filtered).natAbs : Int) ≤ d.metro.current.zeroLimit
      ∧ d.phase = .running ∧ d.weighing.tracking = 100 :=
  ⟨⟨rfl, rfl, rfl, rfl⟩, by decide +kernel⟩

theorem witness_WaitsExpireWithFirstUnmet :
    let d : Dev := { waiting with bridge := { waiting.bridge with request := some { request with waitCount := 3000 } } }
    let w : WaitingPoint := ⟨.loadUp, 0, 20000, 3000, some 3000⟩
    let a := auditing { session with waiting := some w }
    let a : Dev := { a with links := { a.links with service := { a.links.service with handedOff := some (0x68#8, 9#8) } } }
    (d.phase = .running ∧ d.bridge.state = .waiting ∧ d.bridge.request = some { request with waitCount := 3000 }
      ∧ ({ request with waitCount := 3000 } : Request).waitLimit = some 3000 ∧ d.links.lane.handedOff = some (0x21#8, 9#8))
    ∧ (a.phase = .running ∧ a.metro.session = some { session with waiting := some w } ∧ w.waitLimit = some 3000
      ∧ 3000 ≤ w.waitCount ∧ a.links.service.handedOff = some (0x68#8, 9#8)) := by decide +kernel

theorem witness_ZeroCaptureBeginsAndCompletes :
    let last := fun (faulty : Bool) => { good with cellValues := [⟨0, some 0, 5, false⟩, ⟨1, some 1, 5, faulty⟩] }
    let d := fun (faulty : Bool) => ({ calibrating with
      bridge := { calibrating.bridge with state := .empty },
      weighing := { calibrating.weighing with last := last faulty } } : Dev)
    ((d false).ready .service ∧ (d false).metro.working = some fitted ∧ (d false).bridge.state = .empty
      ∧ (d false).weighing.last.cellValues.map (fun v => (v.pos, v.port)) = fitted.requiredList.map (fun i => (i, (fitted.at i).map))
      ∧ ((last false).cellValues.filter (·.faulty)).map (·.pos) = []
      ∧ ((last true).cellValues.filter (·.faulty)).map (·.pos) ≠ []
      ∧ (last true).cellValues.map (fun v => (v.pos, v.port)) = (last false).cellValues.map (fun v => (v.pos, v.port))
      ∧ (d false).weighing.last.saturated = false ∧ (d false).weighing.last.stable = true)
    ∧ (zeroed 100).phase = .running ∧ (zeroed 100).metro.working = some fitted
      ∧ (zeroed 100).metro.zeroCapture = some ⟨100, Vector.replicate 16 1200000⟩
      ∧ (zeroed 100).links.service.slot = some ⟨0x64#8, 9#8, false⟩ :=
  ⟨⟨⟨rfl, rfl, rfl, rfl⟩, by decide +kernel⟩, by decide +kernel⟩

/-- An OPEN CHECKED pass in ENTERING with a detection at the head of the queue, its axles as given. -/
def pairing (sensor : Sensor) (axles : List AxleRecord) : Dev :=
  { onBridge .entering 3 with axle := ⟨100, [⟨sensor, 90⟩], some { pass with axles := axles }⟩ }

/-- The same with other detections behind the head. -/
def pairingOf (sensor : Sensor) (axles : List AxleRecord) (q : List Detection) : Dev :=
  { pairing sensor axles with axle := ⟨100, ⟨sensor, 90⟩ :: q, some { pass with axles := axles }⟩ }

/-- The axle whose window is another. -/
def axleWith (w : Window) : AxleRecord := { axle with window := some w }

/-- An OPEN UNCHECKED pass in ENTERING from an end, with axles of no window, and the head of the queue with those behind it. -/
def following (ee : EntryEnd) (n : Nat) (queue : List Detection) : Dev :=
  let d := onBridge .entering 3
  { d with bridge := { d.bridge with entryEnd := ee },
           axle := ⟨100, queue, some { pass with
             kind := .unchecked, entryEnd := ee, m0 := none, marks := { PassMarks.clear with followOn := ee == .pair },
             axles := List.replicate n { axle with window := none } }⟩ }

/-- The clauses in order: every state that takes events; a zero capture; an EMPTY, a LEAVING and a STANDING bridge; its count at the
bound; a full queue with and without an OPEN pass; the two pairs, 24 axles, an A at the head with an OPEN pass; a B at the head; an A at
the head with none. -/
theorem witness_DetectionsFollowRules :
    (live.takesEvents ∧ { live with phase := .startWrites }.takesEvents)
    ∧ ((zeroed 99).takesEvents ∧ (zeroed 99).metro.zeroCapture = some ⟨99, Vector.replicate 16 1200000⟩
      ∧ (zeroed 99).links.service.slot = some ⟨0x64#8, 9#8, false⟩)
    ∧ (let d := onBridge .empty 0
       d.phase = .running ∧ d.metro.zeroCapture = none ∧ d.axle.queue = [] ∧ d.bridge.state = .empty
         ∧ (onBridge .leaving 0).bridge.state = .leaving ∧ (onBridge .standing 0).bridge.state = .standing)
    ∧ (let d := onBridge .empty 254
       d.metro.session = none ∧ d.bridge.count = some 254 ∧ (-255 : Int) ≤ 254 ∧ (254 : Int) < 255)
    ∧ (let d : Dev := { passing with axle := ⟨100, List.replicate 8 ⟨.A, 90⟩, some pass⟩ }
       d.phase = .running ∧ d.metro.zeroCapture = none ∧ 8 ≤ d.axle.queue.length ∧ d.axle.pass = some pass
         ∧ pass.state = .opened ∧ ({ pass with state := .closed } : Pass).state ≠ .opened)
    ∧ (let a : AxleRecord := { axleWith ⟨30, 500, 10, .running, none⟩ with bTime := some 60 }
       let q := List.replicate 6 (⟨.A, 95⟩ : Detection)
       let d := pairingOf .A [axle, a] q
       d.phase = .running ∧ d.metro.zeroCapture = none ∧ d.metro.session = none ∧ d.bridge.state = .entering
         ∧ d.bridge.entryEnd = .pair ∧ d.bridge.count = some 3 ∧ (-255 : Int) < 3 ∧ (3 : Int) < 255
         ∧ d.axle.pass = some { pass with axles := [axle] ++ [a] } ∧ pass.state = .opened ∧ pass.kind = .checked
         ∧ pass.entryEnd = .pair ∧ q.length < 7 ∧ d.axle.queue = ⟨.A, 90⟩ :: q ∧ (∀ x ∈ q, x.sensor = .A)
         ∧ 90 < min (max d.axle.ms 95) 281474976710655 ∧ min (max d.axle.ms 95) 281474976710655 = 100
         ∧ [axle, a].length < 24 ∧ a.bTime = some 60
         ∧ (pairing .A []).axle.pass = some { pass with axles := [] } ∧ 24 ≤ (List.replicate 24 axle).length)
    ∧ (let a : AxleRecord := axleWith ⟨30, 500, 10, .cut, some 50⟩
       let q := List.replicate 6 (⟨.B, 95⟩ : Detection)
       let d := pairingOf .B [axle, a, axle] q
       d.axle.queue = ⟨.B, 90⟩ :: q ∧ (∀ x ∈ q, x.sensor = .B) ∧ min (max d.axle.ms 3090) 281474976710655 ≤ 90 + 3000
         ∧ d.axle.pass = some { pass with axles := [axle] ++ [a, axle] } ∧ a.window = some ⟨30, 500, 10, .cut, some 50⟩
         ∧ (pairing .B [axle]).axle.pass = some { pass with axles := [axle] })
    ∧ (let d : Dev := { onBridge .standing 3 with axle := ⟨100, [⟨.A, 90⟩, ⟨.A, 95⟩], none⟩ }
       d.phase = .running ∧ d.axle.pass = none ∧ d.axle.queue = ⟨.A, 90⟩ :: [⟨.A, 95⟩] ∧ d.metro.session = none
         ∧ d.bridge.state = .standing ∧ d.bridge.count = some 3) := by
  refine ⟨⟨Or.inr rfl, Or.inl rfl⟩, ⟨Or.inr rfl, by decide +kernel⟩, ?_⟩
  decide +kernel

/-- The UNCHECKED pass from either end with room for one axle more and with none, an A, a B and no detection at the head; and each
form of the queue that is resolved or waits, a later B and a B of the pairing timeout among them. -/
theorem witness_DetectionsFollowRules_unchecked :
    (∀ ee ∈ [EntryEnd.pair, EntryEnd.x], ∀ n ∈ [0, 23, 24], ∀ queue ∈ [[], [⟨Sensor.A, 90⟩, ⟨.A, 95⟩], [⟨.B, 90⟩, ⟨.B, 95⟩]],
      let d := following ee n queue
      d.phase = .running ∧ d.metro.zeroCapture = none ∧ d.metro.session = none ∧ d.bridge.state = .entering
        ∧ d.bridge.count = some 3 ∧ d.bridge.entryEnd = ee ∧ d.axle.queue = queue
        ∧ (d.axle.pass.map fun p => (p.state, p.kind, p.entryEnd, p.axles.length)) = some (.opened, .unchecked, ee, n)
        ∧ (d.axle.pass.any fun p => p.axles.all (·.window.isNone)) = true)
    ∧ (onBridge .empty 0).bridge.state = .empty ∧ (List.replicate 7 (⟨.A, 90⟩ : Detection)).length < 8
    ∧ (let q : List Detection := [⟨.A, 90⟩, ⟨.X, 91⟩, ⟨.B, 92⟩, ⟨.B, 93⟩]
       q = ⟨.A, 90⟩ :: ([⟨.X, 91⟩] ++ ⟨.B, 92⟩ :: [⟨.B, 93⟩]) ∧ ∀ x ∈ [(⟨.X, 91⟩ : Detection)], x.sensor ≠ .B)
    ∧ (let before : List Detection := [⟨.B, 91⟩, ⟨.A, 3091⟩]
       ∀ x ∈ before, x.sensor = .A → 90 + 3000 < x.time) := by decide +kernel

/-- R45, R49, R54, R56: the window before an added axle, COMPLETE, CUT, with its fifty samples and with 27, and a pair of zero
interval. -/
theorem test_pairs_of_a_queue :
    ([⟨50, 1800, 30, .complete, some 60⟩, ⟨30, 100, 10, .cut, some 10⟩, ⟨50, 1800, 30, .running, none⟩,
        ⟨27, 700, 7, .running, none⟩].map fun w =>
        ((after (.detection .B 95) (pairingOf .A [axleWith w] [⟨.A, 91⟩])).axle.pass.bind (·.axles.head?)).bind (·.window))
      = [some ⟨50, 1800, 30, .complete, some 60⟩, some ⟨30, 100, 10, .cut, some 10⟩, some ⟨50, 1800, 30, .complete, some 60⟩,
          some ⟨27, 700, 7, .cut, none⟩]
    ∧ ((after (.detection .B 5) (pairingOf .A [] [])).axle.pass.bind (·.axles.head?)).map (·.speed) = some (some 100000)
    ∧ (let d := after (.detection .B 5) { pairing .A [] with axle := ⟨90, [⟨.A, 90⟩], some { pass with axles := [] }⟩ }
       (d.axle.pass.bind (·.axles.head?)).map (·.speed) = some none ∧ d.axle.pass.map (·.marks.sensorFault) = some true) := by
  decide +kernel

/-- The last window at a directed close: COMPLETE, with no sample, with one, and with its fifty. -/
def closing : List Window :=
  [⟨50, 1800, 30, .complete, some 60⟩, ⟨20, 0, 0, .running, none⟩, ⟨21, 500, 1, .running, none⟩, ⟨50, 1800, 30, .running, none⟩]

/-- R59, R61: the sum of loads that the exit of the vehicle gives, M0 being 34, with each of those windows and with no axle; an
UNCHECKED pass from X closes with none. -/
theorem test_directed_closes :
    let sumOf := fun (axles : List AxleRecord) =>
      (after (.detection .X 95) { passing with
        weighing := { passing.weighing with last := { good with gross := 397512 } },
        axle := ⟨100, [], some { pass with axles := axles }⟩ }).axle.pass.bind (·.loadSum)
    (closing.map fun w => sumOf [axle, axleWith w]) = [some 26, some 397478, some 466, some 26] ∧ sumOf [] = some 0
    ∧ ((after (.detection .A 3090) (following .x 2 [⟨.B, 90⟩])).axle.pass.map fun p => (p.state, p.loadSum, p.axles.length))
      = some (.closed, none, 2) := by decide +kernel

/-- Each way a crossing forms; a waiting audit point; every bridge state; with a pass OPEN in ENTERING, FOLLOW_ON, the exit of the
vehicle and a reversal off at the far end. -/
theorem witness_CrossingsMoveBridge :
    (∀ b n, (onBridge b n).takesEvents ∧ (onBridge b n).metro.zeroCapture = none
      ∧ (onBridge b n).forms (.detection .X 95) .exit ∧ (onBridge b n).metro.session = none ∧ (onBridge b n).axle.pass = none
      ∧ (onBridge b n).bridge.state = b)
    ∧ (∀ axles, (pairing .A axles).forms (.detection .B 95) .forward ∧ (pairing .A axles).forms .pairingTimeout .forward
      ∧ (pairing .B axles).forms (.detection .A 3090) .backward)
    ∧ (let d := pointing (onBridge .standing 3)
       let u : Session := { session with waiting := some ⟨.loadUp, 0, 32000, 0, none⟩ }
       d.forms (.detection .X 95) .exit
       ∧ (d.metro.session = some u ∧ u.waiting = some ⟨.loadUp, 0, 32000, 0, none⟩ ∧ d.links.service.handedOff = some (0x68#8, 9#8)))
    ∧ waiting.links.lane.handedOff = some (0x21#8, 9#8)
    ∧ (let d : Dev := { passing with axle := ⟨100, [], some { pass with marks := { pass.marks with followOn := true } }⟩ }
       d.axle.pass = some { pass with marks := { pass.marks with followOn := true } } ∧ pass.state = .opened
         ∧ pass.entryEnd = d.bridge.entryEnd ∧ d.bridge.state = .entering ∧ d.bridge.entryEnd = .pair)
    ∧ (pass.marks.followOn = false ∧ pass.kind = .checked ∧ pass.m0 = some 34
       ∧ ∀ w ∈ closing, [axle, axleWith w].getLast? = some (axleWith w) ∧ (axleWith w).window = some w)
    ∧ (let d : Dev := { pairing .B [] with bridge := { (onBridge .entering 3).bridge with entryEnd := .x } }
       d.bridge.entryEnd = .x ∧ d.forms (.detection .A 3090) .backward) := by
  refine ⟨fun b n => ⟨Or.inr rfl, rfl, rfl, rfl, rfl, rfl⟩, fun axles => ⟨⟨90, rfl⟩, ⟨90, rfl⟩, 90, rfl, ?_⟩,
    ⟨rfl, by decide +kernel⟩, by decide +kernel, by decide +kernel, by decide +kernel, rfl, 90, rfl, ?_⟩
  · show min (max 100 3090) 281474976710655 ≤ 90 + 3000
    decide
  · show min (max 100 3090) 281474976710655 ≤ 90 + 3000
    decide

theorem witness_InputChangesAreTaken :
    live.phase = .running ∧ live.bridge.entryBeam.blocked ≠ true ∧ live.bridge.exitBeam.blocked ≠ true
      ∧ live.metro.working = none
      ∧ (calibrating.metro.switchClosed = true ∧ calibrating.metro.working = some fitted ∧ calibrating.metro.zeroCapture = none)
      ∧ ((zeroed 99).phase = .running ∧ (zeroed 99).metro.switchClosed = true ∧ (zeroed 99).metro.working = some fitted
        ∧ (zeroed 99).metro.zeroCapture = some ⟨99, Vector.replicate 16 1200000⟩
        ∧ (zeroed 99).links.service.slot = some ⟨0x64#8, 9#8, false⟩) := by decide +kernel

/-- A record write at the head of the queue, the store's words in canonical form. -/
def writing (report : Option Done) : Dev :=
  { live with
    store := { live.store with queue := [.record (visitSpec visit none) 1 1 report] },
    links := { live.links with console := { live.links.console with slot := some ⟨2#8, 9#8, false⟩ } } }

theorem witness_PowerEventsFollowRules :
    (writing none).phase ≠ .powerFail ∧ (writing none).store.queue = .record (visitSpec visit none) 1 1 none :: []
      ∧ Memory.wf (writing none).nv = true
      ∧ (recordWords (visitSpec visit none) 1 1).length ≤ 39 + 1 ∧ 38 + 1 < (recordWords (visitSpec visit none) 1 1).length
      ∧ (after (.powerFailWarning 38) (writing none)).phase = .powerFail
      ∧ live.store.queue = []
      ∧ (let d : Dev := { live with nv := [(0, 0x7#39), (1, 1#39), (2, 0x3#39)],
                                    store := { live.store with queue := [.scrub 0] } }
         d.phase ≠ .powerFail ∧ d.store.queue = .scrub 0 :: [] ∧ readClass (Memory.read d.nv 0) = (.corrected, some 1#32)
           ∧ readClass (Memory.read d.nv 1) = (.correctedCheck, some 0#32)
           ∧ (readClass (Memory.read d.nv 2)).1 = .double ∧ (readClass (Memory.read d.nv 3)).1 = .clean) := by
  decide +kernel

theorem witness_ScanEndStartsBlocks : State.reset.dev.phase = .scanning ∧ State.reset.dev.nv = [] := by decide

/-- Records as they stand in a store, given in rising order of their addresses; a word of 0 is not listed. -/
def stored (xs : List (RecordSpec × Nat × Nat)) : Memory :=
  xs.flatMap fun x => ((recordData x.1 x.2.1 x.2.2).filter fun w => w.2 != 0#32).map fun w => (w.1, encodeWord w.2)

/-- The controller in its scan over a store of some records, two bits inverted in some of its words. -/
def scanning (xs : List (RecordSpec × Nat × Nat)) (bad : List Nat) : State :=
  rest (Dev.start ((stored xs).map fun w => if bad.contains w.1 then (w.1, w.2 ^^^ 3#39) else w) ⟨1000, true⟩ ⟨false, false, false⟩)

/-- What the scan of a state finds: each slot with its class and its key. -/
def foundIn (s : State) : List (Region × Nat × SlotClass × Nat) := s.dev.scan.1.map fun x => (x.region, x.slot, x.cls, x.key)

/-- The hypotheses of the statements on a start-up. -/
def scans (s : State) : Prop := s.dev.phase = .scanning ∧ s.storeCanonical ∧ s.dev.store = Store.start

theorem scans_of (xs : List (RecordSpec × Nat × Nat)) (bad : List Nat) (h : Memory.wf (scanning xs bad).dev.nv = true) :
    scans (scanning xs bad) := ⟨rfl, h, rfl⟩

/-- A visit in OPEN with its first weighing, and a ticket of a visit, their other fields at 0. -/
def openVisit (n first : Nat) : Visit :=
  { visit with number := n, slot := n, identity := [10], state := .opened, first := some ⟨first, 0, 0, .e5, 0, .pending⟩ }
def ticketOf (n visit : Nat) : Ticket :=
  ⟨n, visit, [10], .receival, 1, 0, .e5, .pending, 0, 1, 0, 0, .e5, .pending, 0, false, 1, 0, false, true, ⟨false, false, false, false⟩,
    false, false, false, none⟩

/-- Visits 1 and 2 with weighing 3 alone in the archive, visit 3 DAMAGED. -/
def yardStore : State :=
  scanning [(visitSpec (openVisit 1 3) none, 1, 1), (visitSpec (openVisit 2 4) none, 1, 1), (visitSpec (openVisit 3 3) none, 1, 1),
    (weighingSpec ⟨3, [10], 0, 0, .e5, .pending, .first, 0, some 1⟩, 0, 0)] [recordBase .visits 3 1 + 1]

/-- Visits with closing numbers: 10 its own ticket, 11 another's. -/
def closingStore : State :=
  scanning [(visitSpec (openVisit 4 3) (some 10), 1, 1), (visitSpec (openVisit 5 3) (some 11), 1, 1),
    (ticketSpec (ticketOf 10 4), 0, 0), (ticketSpec (ticketOf 11 9), 0, 0)] []

/-- Visits with closing numbers: 12 no ticket, 13 a DAMAGED one, 14 a ticket that a queue slot holds. -/
def settledStore : State :=
  scanning [(visitSpec (openVisit 6 3) (some 12), 1, 1), (visitSpec (openVisit 7 3) (some 13), 1, 1),
    (visitSpec (openVisit 8 3) (some 14), 1, 1), (queueSpec 0 14 (some (ticketOf 14 8)), 1, 1),
    (ticketSpec (ticketOf 13 7), 0, 0), (ticketSpec (ticketOf 14 8), 0, 0)] [recordBase .tickets 12 0 + 1]

/-- A queue slot for each line of R124, two of one number, one with the DAMAGED mark. -/
def queueStore : State :=
  scanning [(queueSpec 0 14 (some (ticketOf 14 8)), 1, 1), (queueSpec 1 20 (some (ticketOf 20 8)), 1, 1),
    (queueSpec 2 21 (some (ticketOf 21 8)), 1, 1), (queueSpec 3 14 (some (ticketOf 14 8)), 1, 1), (queueSpec 4 22 none, 1, 1),
    (ticketSpec (ticketOf 20 8), 0, 0)] [recordBase .queue 1 1 + 1, recordBase .queue 2 1 + 1]

/-- Three tares of one identity, two of one time, and a DAMAGED one. -/
def tareStore : State :=
  scanning [(tareSpec { tare with time := 5, weighing := 2 }, 1, 1), (tareSpec { tare with slot := 1, time := 6, weighing := 1 }, 1, 1),
    (tareSpec { tare with slot := 2, time := 6, weighing := 3 }, 1, 1), (tareSpec { tare with slot := 3, identity := [6] }, 1, 1)]
    [recordBase .tares 3 1 + 1]

theorem witness_StartUpRestoresRecords :
    (scans yardStore ∧ foundIn yardStore
      = [(.visits, 1, .valid, 1), (.visits, 2, .valid, 2), (.visits, 3, .damaged, 3), (.weighings, 2, .valid, 3)])
    ∧ (scans closingStore ∧ foundIn closingStore
      = [(.visits, 4, .valid, 4), (.visits, 5, .valid, 5), (.tickets, 9, .valid, 10), (.tickets, 10, .valid, 11)])
    ∧ (scans settledStore ∧ foundIn settledStore
      = [(.visits, 6, .valid, 6), (.visits, 7, .valid, 7), (.visits, 8, .valid, 8), (.queue, 0, .valid, 14),
          (.tickets, 12, .damaged, 13), (.tickets, 13, .valid, 14)])
    ∧ (scans queueStore ∧ foundIn queueStore
      = [(.queue, 0, .valid, 14), (.queue, 1, .damaged, 20), (.queue, 2, .damaged, 21), (.queue, 3, .valid, 14),
          (.queue, 4, .valid, 22), (.tickets, 19, .valid, 20)])
    ∧ (scans tareStore ∧ foundIn tareStore
      = [(.tares, 0, .valid, 2), (.tares, 1, .valid, 1), (.tares, 2, .valid, 3), (.tares, 3, .damaged, 5)]) :=
  ⟨⟨scans_of _ _ (by decide +kernel), by decide +kernel⟩, ⟨scans_of _ _ (by decide +kernel), by decide +kernel⟩,
    ⟨scans_of _ _ (by decide +kernel), by decide +kernel⟩, ⟨scans_of _ _ (by decide +kernel), by decide +kernel⟩,
    ⟨scans_of _ _ (by decide +kernel), by decide +kernel⟩⟩

/-- What those records give their owners: the visits with and without a closing number, a ticket, the DAMAGED mark, a tare. -/
theorem witness_StartUpRestoresRecords_decoded :
    visitOfWords 1 1 (visitWords (openVisit 1 3) none) = some (openVisit 1 3, none)
    ∧ visitOfWords 4 4 (visitWords (openVisit 4 3) (some 10)) = some (openVisit 4 3, some 10)
    ∧ ticketOfWords 10 (ticketWords (ticketOf 10 4) false) = some (ticketOf 10 4)
    ∧ queueDamagedMark (queueSpec 4 22 none).body = true ∧ queueDamagedMark (queueSpec 0 14 (some (ticketOf 14 8))).body = false
    ∧ tareOfWords 2 3 (tareWords { tare with slot := 2, time := 6, weighing := 3 })
      = some { tare with slot := 2, time := 6, weighing := 3 } := by decide +kernel

/-- R102: of three tares of one identity the later with the higher number stays, and the DAMAGED slot goes. -/
theorem test_start_up_restores_tares :
    ((after .startUpScanEnd tareStore.dev).tickets.tares.map (·.slot)) = [2] := by decide +kernel

/-- A counters block, with an audit's result of its generation whose own counters block was not written. -/
def statusStore : State :=
  scanning [(countersSpec 13 .pending 2, 1, 1),
    (trailSpec ⟨3, none, 13, .auditResult true false false false 5 .e20 0 0 13⟩, 0, 0)] []

/-- A counters block behind the parameter block, the header of a commit cut off, and a SITE SET cut off. -/
def cutStore : State :=
  scanning [(paramSpec ParamSet.blank 13 SiteSettings.defaults, 1, 1), (countersSpec 12 .verified 0, 1, 1),
    (trailSpec ⟨1, none, 14, .calCommit 60000 .e20 .verified 60000 .e20 1 13⟩, 0, 0),
    (trailSpec ⟨2, none, 13, .siteChange 38 1 3⟩, 0, 0)] []

/-- No parameter block; a trail archived up to 1 whose records 487 and 488 are lost, the first named by an event, and 489 is DAMAGED. -/
def trailStore : State :=
  scanning [(countersSpec 5 .verified 0, 1, 1), (trailSpec ⟨481, none, 5, .archive 1 1 480⟩, 0, 0),
    (trailSpec ⟨487, none, 5, .timeSet none 5⟩, 0, 0), (trailSpec ⟨488, none, 5, .timeSet none 5⟩, 0, 0),
    (trailSpec ⟨489, some 5, 5, .timeSet none 5⟩, 0, 0),
    (trailSpec ⟨490, none, 5, .integrityEvent .lostRecord .patrol 487⟩, 0, 0)]
    [recordBase .trail 486 0 + 7, recordBase .trail 487 0 + 7, recordBase .trail 488 0 + 1]

theorem witness_StartUpRestoresMetrology :
    (scans statusStore ∧ foundIn statusStore = [(.counters, 0, .valid, 1), (.trail, 2, .valid, 3)])
    ∧ (scans cutStore ∧ foundIn cutStore
      = [(.parameters, 0, .valid, 2), (.counters, 0, .valid, 1), (.trail, 0, .valid, 1), (.trail, 1, .valid, 2)])
    ∧ (scans trailStore ∧ foundIn trailStore
      = [(.counters, 0, .valid, 1), (.trail, 480, .valid, 481), (.trail, 486, .interrupted, 0), (.trail, 487, .interrupted, 0),
          (.trail, 488, .damaged, 489), (.trail, 489, .valid, 490)])
    ∧ (paramOfWords (paramWords ParamSet.blank 13 SiteSettings.defaults) = some (ParamSet.blank, 13, SiteSettings.defaults)
      ∧ countersOfWords (countersSpec 13 .pending 2).body = some (13, .pending, 2)
      ∧ SiteSettings.defaults.get 38 = 1 ∧ SiteSettings.defaults.set? 38 3 ≠ none
      ∧ (∀ b ∈ [TrailBody.auditResult true false false false 5 .e20 0 0 13, .calCommit 60000 .e20 .verified 60000 .e20 1 13,
          .siteChange 38 1 3, .archive 1 1 480, .integrityEvent .lostRecord .patrol 487],
        trailOfWords 3 (trailSpec ⟨3, none, 13, b⟩).body = some ⟨3, none, 13, b⟩)) :=
  ⟨⟨scans_of _ _ (by decide +kernel), by decide +kernel⟩, ⟨scans_of _ _ (by decide +kernel), by decide +kernel⟩,
    ⟨scans_of _ _ (by decide +kernel), by decide +kernel⟩, by decide +kernel⟩

/-- R186, steps 3 and 4: the status that event 490 gives, then two findings behind the last record and the counters block after them. -/
theorem test_start_up_writes_findings :
    let d := after .startUpScanEnd trailStore.dev
    (d.metro.status, d.metro.boundary, d.metro.lastSeq, d.metro.statusSeq, d.metro.generation, d.store.queue.length)
      = (.integrity, 1, 492, 492, 5, 4) := by decide +kernel

/-- The ticket queue full of posted entries. -/
def fullQueue : Tickets := { Tickets.start with queue := (List.range 32).map fun i => ⟨i + 1, true, none, 0, i⟩ }

theorem witness_StartUpAndRestartProceed :
    (let d : Dev := { live with phase := .startWrites, tickets := fullQueue }
     d.phase = .startWrites ∧ d.store.queue = [] ∧ d.store.waiting = []
       ∧ d.metro.site.threshold ≤ (d.tickets.queue.filter (·.posted)).length ∧ d.tickets.queue.length = 32)
    ∧ live.ready .service
    ∧ (after (.restart 4#8) live).restartPending = some (0 + 1) ∧ live.restartPending = none
    ∧ (let d : Dev := { waiting with restartPending := some 0 }
       d.phase = .running ∧ d.restartPending = some 0 ∧ d.bridge.state = .waiting)
    ∧ (let d : Dev := { live with phase := .draining }
       d.phase = .draining ∧ d.store.queue = [] ∧ d.store.waiting = []
         ∧ ∀ l, (d.links.get l).tx = [] ∧ (d.links.get l).waiting = []) :=
  ⟨by decide +kernel, ready_live _, by decide +kernel, rfl, by decide +kernel, rfl, rfl, rfl, fun l => by cases l <;> exact ⟨rfl, rfl⟩⟩

theorem witness_QueuedWritesComplete :
    (writing none).phase = .running
      ∧ (writing none).store.queue = .record (visitSpec visit none) 1 1 none :: []
      ∧ (writing (some (.answer .console .ok .none))).store.queue
        = .record (visitSpec visit none) 1 1 (some (.answer .console .ok .none)) :: []
      ∧ ((writing none).links.get .console).slot = some ⟨2#8, 9#8, false⟩
      ∧ (trailSpec ⟨1, none, 0, .timeSet none 5⟩).region.paired = false ∧ (trailSpec ⟨1, none, 0, .timeSet none 5⟩).kind ≠ 0
      ∧ (let d : Dev := { live with nv := [(0, 0x7#39), (1, 1#39), (2, 0x3#39)],
                                    store := { live.store with queue := [.scrub 0] } }
         d.store.queue = .scrub 0 :: [] ∧ readClass (Memory.read d.nv 0) = (.corrected, some 1#32)
           ∧ readClass (Memory.read d.nv 1) = (.correctedCheck, some 0#32)
           ∧ (readClass (Memory.read d.nv 2)).1 = .double ∧ (readClass (Memory.read d.nv 3)).1 = .clean
           ∧ d.phase = .running ∧ (d.store.pop).inCurrentCopy 2 = true ∧ d.store.pop.waiting = []
           ∧ d.store.pop.queue.length < 16)
      ∧ (let result : WeighResult := ⟨.ok, some (plainFields .none none 5 140200)⟩
         let causes := [Cause.visitExpired 9 truck 4, .visitHeld 7 truck .major, .visitExpired 7 truck 5]
         let d := { writing (some (.weigh result causes (some 1))) with
           tickets := fullQueue, bridge := { waiting.bridge with state := .recording } }
         d.store.queue = .record (visitSpec visit none) 1 1 (some (.weigh result causes (some 1))) :: []
           ∧ d.metro.site.threshold ≤ (fullQueue.queue.filter (·.posted)).length ∧ d.bridge.heldRelease = false
           ∧ causes = [.visitExpired 9 truck 4] ++ .visitHeld 7 truck .major :: [.visitExpired 7 truck 5]
           ∧ (∀ x ∈ [Cause.visitExpired 7 truck 5], priority .console x ≠ priority .console (.visitHeld 7 truck .major))
           ∧ causes = [.visitExpired 9 truck 4, .visitHeld 7 truck .major] ++ .visitExpired 7 truck 5 :: []
           ∧ priority .console (.visitHeld 7 truck .major) ≠ 7 ∧ priority .console (.visitExpired 7 truck 5) ≠ 7)
      ∧ (let d := { writing none with
           bridge := { waiting.bridge with state := .recording, heldRelease := true },
           links := { live.links with lane := { waiting.links.lane with slot := some ⟨0x23#8, 8#8, false⟩ },
                                      service := { live.links.service with slot := some ⟨0x6E#8, 9#8, false⟩ } } }
         d.bridge.heldRelease = true ∧ d.links.lane.slot = some ⟨0x23#8, 8#8, false⟩
           ∧ d.links.service.slot = some ⟨0x6E#8, 9#8, false⟩)
      ∧ (writing (some (.setTime 5000 none 1))).links.console.slot = some ⟨2#8, 9#8, false⟩
      ∧ (writing (some (.setTime 5000 none 1))).store.queue
        = .record (visitSpec visit none) 1 1 (some (.setTime 5000 none 1)) :: []
      ∧ (writing (some (.siteSet 1 (some (.lane, .b9600))))).store.queue
        = .record (visitSpec visit none) 1 1 (some (.siteSet 1 (some (.lane, .b9600)))) :: []
      ∧ (∀ done ∈ [Done.commit 14 1 5, .auditEnd true false false 7 5 true, .auditEnd true false false 7 5 false, .archive 5,
          .ticketClear, .post 7, .nothing],
        let d : Dev := { writing (some done) with links := { live.links with
          service := { live.links.service with slot := some ⟨0x67#8, 9#8, false⟩ },
          inventory := { live.links.inventory with slot := some ⟨0x42#8, 9#8, false⟩ } } }
        d.store.queue = .record (visitSpec visit none) 1 1 (some done) :: []
          ∧ d.links.service.slot = some ⟨0x67#8, 9#8, false⟩ ∧ d.links.inventory.slot = some ⟨0x42#8, 9#8, false⟩)
      ∧ (∀ done ∈ [Done.siteSet 1 none, .siteSet 1 (some (.lane, .b9600)), .archive 5],
        let d : Dev := { writing (some done) with links := { live.links with
          service := { live.links.service with slot := some ⟨0x6E#8, 9#8, true⟩ } } }
        d.store.queue = .record (visitSpec visit none) 1 1 (some done) :: []
          ∧ d.links.service.slot = some ⟨0x6E#8, 9#8, true⟩) := by
  decide +kernel

/-- The patrol at a slot, over a store of a few words as given: a CORRECTED word and a DOUBLE one. -/
def patrolling (slot : Nat) (nv : Memory) (e : IndexEntry) : Dev :=
  { live with nv := nv, metro := { live.metro with lastSeq := 5, status := .verified },
              store := { live.store with patrol := slot, index := tableWrite indexDefault slot e [] } }

/-- A slot never written, and the last slot with a write queued to it; the counters block with a CORRECTED word and a DOUBLE one in copy
0, and in copy 1; the trail slot of record 5 with a DOUBLE word in a VALID and in an ABSENT slot, and its completion word DOUBLE; a slot
of an owner with its record and without. -/
theorem witness_PatrolAdvances :
    (live.phase = .running ∧ live.store.corrected ≤ 65535 ∧ live.store.uncorrectable ≤ 65535
      ∧ ∀ w ∈ (List.range (slotOfNumber live.store.patrol).1.copies).flatMap
          (readCopy live.nv (slotOfNumber live.store.patrol).1 (slotOfNumber live.store.patrol).2), w.cls = .clean)
    ∧ (let s : Store := { live.store with patrol := 7009, queue := [.record (trailSpec ⟨512, none, 0, .timeSet none 5⟩) 0 0 none] }
       s.busy (slotOfNumber s.patrol).1 (slotOfNumber s.patrol).2 = true ∧ ¬ s.patrol + 1 < 7010)
    ∧ (let d := patrolling 1 [(192, 0x7#39), (193, 0x3#39)] indexDefault
       let e := patrolling 1 [(200, 0x3#39)] indexDefault
       d.phase = .running ∧ slotOfNumber d.store.patrol = (.counters, 0) ∧ Region.counters.paired = true
         ∧ d.store.busy .counters 0 = false ∧ 1 - (d.store.pairAt .counters 0).nextCopy = 0
         ∧ (readCopy d.nv .counters 0 0).any (·.wasCorrected) = true
         ∧ (readCopy d.nv .counters 0 0).any (·.cls == .double) = true
         ∧ (readCopy e.nv .counters 0 0).all (·.cls != .double) = true
         ∧ (readCopy e.nv .counters 0 1).any (·.cls == .double) = true
         ∧ d.store.waiting = [] ∧ d.store.queue.length + 1 < 16)
    ∧ (let valid := patrolling 6502 [(126704 + 1, 0x3#39)] ⟨.valid, 5⟩
       let empty := patrolling 6502 [(126704 + 1, 0x3#39)] indexDefault
       let lost := patrolling 6502 [(126704 + 7, 0x3#39)] ⟨.valid, 5⟩
       let again := patrolling 6502 [(126704 + 7, 0x3#39)] ⟨.damaged, 5⟩
       (slotOfNumber valid.store.patrol = (.trail, 4) ∧ Region.trail.paired = false ∧ valid.store.busy .trail 4 = false
         ∧ valid.store.indexAt .trail 4 = ⟨.valid, 5⟩ ∧ empty.store.indexAt .trail 4 = indexDefault
         ∧ again.store.indexAt .trail 4 = ⟨.damaged, 5⟩ ∧ valid.metro.status ≠ .integrity
         ∧ ((readCopy valid.nv .trail 4 0).getLast?.map (·.cls)) = some .clean
         ∧ (readCopy valid.nv .trail 4 0).any (·.cls == .double) = true
         ∧ ((readCopy lost.nv .trail 4 0).getLast?.map (·.cls)) = some .double
         ∧ lost.metro.boundary < 5 ∧ 5 ≤ lost.metro.lastSeq ∧ 5 ≤ lost.metro.boundary + 512 ∧ (5 - 1) % 512 = 4)
         ∧ ∀ q, live.metro.boundary < q → q ≤ live.metro.lastSeq → (q - 1) % 512 ≠ 4)
    ∧ (let d := visited visit
       d.yard.visits = [] ++ visit :: [] ∧ visit.slot = 0 ∧ d.yard.leaving visit.number = false
         ∧ ({ d.yard with inUse := some ⟨7, true⟩ } : Yard).leaving visit.number = true ∧ (∀ v ∈ d.yard.visits, v.slot ≠ 1)
         ∧ ({ d.metro with paramHeld := true } : Metrology).paramHeld = true ∧ d.metro.paramHeld = false
         ∧ fullQueue.queue.map (·.slot) = List.range 32
         ∧ ([] ++ tare :: [{ tare with slot := 1 }] : List TareEntry).map (·.slot) = [0, 1]) := by
  refine ⟨by decide +kernel, by decide +kernel, by decide +kernel, ⟨by decide +kernel, fun q h h' => ?_⟩, by decide +kernel⟩
  exact absurd (Nat.lt_of_lt_of_le h h') (by decide)

theorem witness_LinkEventsAreTaken :
    let d : Dev := { live with links := { live.links with service :=
      { live.links.service with tx := [⟨0x6F#8, 9#8, .ok, .none⟩], newRates := [(.b9600, 0), (.b9600, 1)], errors := 65535 } } }
    d.phase = .running ∧ (d.links.get .service).tx = ⟨0x6F#8, 9#8, .ok, .none⟩ :: [] ∧ (live.links.get .lane).tx = []
      ∧ (d.links.get .service).newRates = (.b9600, 0) :: [(.b9600, 1)]
      ∧ ((after (.linkRateChange .service) d).links.get .service).newRates = (.b9600, 0 + 1) :: []
      ∧ ((busy.dev.links.get .console).waiting ≠ [] ∧ (live.links.get .lane).waiting = [] ∧ (live.links.get .lane).tx.length < 8)
      ∧ (d.links.get .service).breakHeld = false
      ∧ bringDiscard (d.links.get .service).assembly [0x7E#8, 1#8] = true
      ∧ leavePartial (d.links.get .service).assembly [0x7E#8, 2#8, 5#8] = true := by decide +kernel

/-- R189: noise before a frame, a frame of the least length, the lengths 1, 120 and 121, a wrong check, and a frame that ends before its check. -/
theorem witness_LinkEventsAreTaken_frames :
    (takeBytes .hunting ([5#8] ++ frameBytes [1#8, 9#8])).2.getLast? = some (.frame [1#8, 9#8])
      ∧ (takeBytes .hunting (frameBytes (List.replicate 9 0x7E#8))).2.getLast? = some (.frame (List.replicate 9 0x7E#8))
      ∧ bringDiscard .hunting [0x7E#8, 120#8] = false
      ∧ bringDiscard .hunting [5#8, 0x7E#8, 1#8] = true ∧ bringDiscard .hunting [0x7E#8, 121#8] = true
      ∧ bringDiscard .hunting [0x7E#8, 2#8, 1#8, 9#8, 0#8, 0#8] = true ∧ bringDiscard .hunting (frameBytes [1#8, 9#8]) = false
      ∧ leavePartial .hunting [0x7E#8] = true ∧ leavePartial .hunting (frameBytes [1#8, 9#8]).dropLast = true := by
  refine ⟨?_, ?_, ?_, ?_, ?_, ?_, ?_, ?_, ?_⟩ <;> decide +kernel

theorem witness_BreakResetsLink :
    ({ onBridge .recording 3 with phase := .draining } : Dev).phase = .draining ∧ waiting.phase = .running ∧ waiting.bridge.state = .waiting ∧ live.bridge.state ≠ .waiting
      ∧ (zeroed 5).phase = .running ∧ (zeroed 5).metro.zeroCapture ≠ none ∧ live.metro.zeroCapture = none := by decide +kernel

theorem hasRoom_live (n : Nat) (h : n ≤ 16) : live.hasRoom n :=
  ⟨rfl, by show (0 : Nat) + n ≤ 16; omega⟩

/-- A summary of one MAJOR group, the closed pass that formed it, a capture of the truck on that pass, and the yard it stands on: the
policy HOLD, one visit. -/
def majorSummary : AxleSummary :=
  ⟨5, 13, .e20, [⟨1, 412400⟩], 5, ⟨20000, 0, 0, 0⟩, 0, PassMarks.clear, ⟨false, false, false, false⟩⟩
def closedPass : Pass :=
  { pass with state := .closed, reason := some .normal, eAtClose := some .e20, loadSum := some 412400, summary := some majorSummary }
def captured (role : Role) : Capture :=
  ⟨truck, .weighNext, .visit role 7 false, 412400, .e20, 13, .verified, 1000, some 5⟩
def onYard (hold : Bool) (v : Visit) : Dev :=
  { live with yard := ⟨[v], 7, none⟩, axle := ⟨100, [], some closedPass⟩,
              metro := { live.metro with site := { live.metro.site with hold := hold } } }

/-- An empty archive expires no visit. -/
theorem expires_none (d : Dev) (slot : Nat) (h : d.store.weighingIn slot = none) :
    ∀ x ∈ d.yard.visits, ∀ f, x.first = some f → d.store.weighingIn slot ≠ some f.number := fun _ _ f _ e => by
  rw [h] at e
  cases e

theorem hasRoom_onYard (hold : Bool) (v : Visit) (n : Nat) (h : n ≤ 16) : (onYard hold v).hasRoom n :=
  ⟨rfl, by show (0 : Nat) + n ≤ 16; omega⟩

/-- A first weighing of 300,000 tenths, and one of 500,000. -/
def lightFirst : FirstWeighing := ⟨3, 300000, 900, .e20, 13, .verified⟩
def heavyFirst : FirstWeighing := ⟨3, 500000, 900, .e20, 13, .verified⟩

/-- The common hypotheses, and for each clause the visit, the site and the tables that meet its own. -/
theorem witness_VisitCapturesFollowRules :
    (∀ hold v, v.number = 7 → (onYard hold v).phase = .running ∧ (onYard hold v).hasRoom 6
      ∧ (onYard hold v).tickets.lastWeighing < 99999999 ∧ (onYard hold v).tickets.lastTicket < 99999999
      ∧ (onYard hold v).yard.find v.number = some v
      ∧ ∀ x ∈ (onYard hold v).yard.visits, ∀ f, x.first = some f → (onYard hold v).store.weighingIn 0 ≠ some f.number)
    ∧ (visit.number = 7 ∧ (captured .first).binding = .visit .first visit.number false)
    ∧ ((onYard true visit).metro.site.hold = true ∧ (onYard true visit).summaryFor (captured .first) = some majorSummary
      ∧ majorSummary.indicative = ⟨false, false, false, false⟩ ∧ majorSummary.worst = .major
      ∧ (onYard false visit).metro.site.hold = false)
    ∧ (visit.direction = .receival ∧ visit.state = .awaitingFirst ∧ visit.loadedFirst = true
      ∧ ({ visit with direction := .outturn, loadedFirst := false } : Visit).direction = .outturn)
    ∧ (let at13 := { tare with generation := 13 }
       let d : Dev := { onYard false visit with tickets := { Tickets.start with tares := [at13] } }
       d.tickets.findTare truck = some at13 ∧ judge at13 1000 13 d.metro.site.tareAge = .valid
         ∧ (captured .onePass).weight < ({ at13 with weight := 500000 } : TareEntry).weight
         ∧ at13.weight ≤ (captured .onePass).weight
         ∧ d.tickets.queue.length < 32 ∧ 32 ≤ fullQueue.queue.length)
    ∧ ((onYard false visit).tickets.judgeId truck 1000 13 (onYard false visit).metro.site.tareAge ≠ .valid)
    ∧ (let opened := fun (f : FirstWeighing) (loaded : Bool) (dir : Direction) =>
         { visit with state := .opened, first := some f, loadedFirst := loaded, direction := dir }
       (opened lightFirst true .receival).state = .opened ∧ (opened lightFirst true .receival).first = some lightFirst
         ∧ lightFirst.weight < (captured .second).weight ∧ (captured .second).weight ≤ heavyFirst.weight
         ∧ (opened lightFirst false .outturn).loadedFirst = false ∧ (opened lightFirst false .outturn).direction = .outturn) :=
  ⟨fun hold v hv => ⟨rfl, hasRoom_onYard hold v 6 (by decide), by show (0 : Nat) < 99999999; decide,
      by show (0 : Nat) < 99999999; decide, by simp [onYard, Yard.find, hv], expires_none _ _ rfl⟩, by decide +kernel⟩

/-- A register of visits numbered 1 to 64, none of the truck, and a tare table of 256 entries, none of the truck. -/
def fullYard : Yard := ⟨(List.range 64).map fun i => { visit with number := i + 1, identity := [13], slot := i }, 64, none⟩
def fullTares : List TareEntry := (List.range 256).map fun i => { tare with identity := [13], slot := i }

theorem witness_OtherCapturesFollowRules :
    let d := onYard false { visit with first := some lightFirst }
    (d.phase = .running ∧ d.hasRoom 3 ∧ d.tickets.lastWeighing < 99999999 ∧ d.tickets.lastTicket < 99999999
      ∧ ∀ x ∈ d.yard.visits, ∀ f, x.first = some f → d.store.weighingIn 0 ≠ some f.number)
    ∧ d.yard.find 8 = none
    ∧ (let expiring : Dev := { d with store := d.store.setIndex .weighings 0 ⟨.valid, 3⟩ }
       expiring.hasRoom 3 ∧ expiring.yard.visits = [] ++ { visit with first := some lightFirst } :: []
         ∧ expiring.store.weighingIn 0 = some lightFirst.number)
    ∧ (let c : Capture := { captured .first with binding := .autoOpen }
       c.binding = .autoOpen ∧ d.yard.findId truck = some { visit with first := some lightFirst }
         ∧ d.yard.find 7 = some { visit with first := some lightFirst }
         ∧ fullYard.findId truck = none ∧ 64 ≤ fullYard.visits.length
         ∧ live.yard.findId truck = none ∧ live.yard.visits.length < 64 ∧ live.metro.site.hold = false)
    ∧ (let c : Capture := { captured .tare with binding := .tare }
       c.binding = .tare ∧ ({ live.tickets with tares := [tare] } : Tickets).findTare truck = some tare
         ∧ live.tickets.findTare truck = none ∧ live.tickets.tares.length < 256
         ∧ lowestFree (live.tickets.tares.map (·.slot)) 256 = some 0
         ∧ ({ live.tickets with tares := fullTares } : Tickets).findTare truck = none ∧ 256 ≤ fullTares.length)
    ∧ (({ live.tickets with lastWeighing := 99999999 } : Tickets).lastWeighing = 99999999 ∧ 16 ≤ busy.dev.store.queue.length)
    ∧ (d.axle.pass = some closedPass ∧ closedPass.summary = some majorSummary
      ∧ (captured .first).pass = some closedPass.openedAt ∧ closedPass.marks.calMode = false
      ∧ { captured .first with pass := none }.pass ≠ some closedPass.openedAt
      ∧ live.axle.pass = none) :=
  ⟨⟨rfl, hasRoom_onYard _ _ 3 (by decide), by decide, by decide, expires_none _ _ rfl⟩, by decide,
    ⟨⟨rfl, by decide⟩, rfl, by decide⟩, by decide +kernel⟩

theorem witness_ConsoleChangesAreAdmitted :
    (let y : Yard := ⟨[visit], 65534, none⟩
     y.visits.length ≤ 64 ∧ y.lastNumber ≤ 65535 ∧ y.lastNumber < 65535 ∧ ∀ v ∈ y.visits, v.number ≠ y.lastNumber + 1) ∧
    (live.ready .console ∧ live.hasRoom 1 ∧ identityOfBytes truckBytes = some truck ∧ directionOfByte 2#8 = some .outturn
      ∧ commodityOfHalf 0#16 = some none ∧ flagOfByte 1#8 = some true ∧ (∀ v ∈ live.yard.visits, v.identity ≠ truck)
      ∧ live.yard.visits.length < 64)
    ∧ ((visited { visit with state := .held }).ready .console ∧ (visited { visit with state := .held }).hasRoom 1
      ∧ 1 ≤ (7#16).toNat ∧ (visited { visit with state := .held }).yard.find (7#16).toNat = some { visit with state := .held }
      ∧ (visited { visit with state := .held }).yard.uses (7#16).toNat = false ∧ (999#16).toNat ≤ 999)
    ∧ ({ live with tickets := { live.tickets with tares := [tare] } } : Dev).tickets.findTare truck = some tare :=
  ⟨by decide +kernel, ⟨ready_live _, hasRoom_live 1 (by decide), by decide +kernel⟩,
    ⟨⟨rfl, rfl, rfl, rfl⟩, ⟨rfl, by decide⟩, by decide +kernel⟩, by decide +kernel⟩

theorem witness_TicketsAreTakenAndCleared :
    let d : Dev := { live with tickets := fullQueue }
    d.ready .inventory ∧ d.tickets.queue.find? (·.posted) = some ⟨1, true, none, 0, 0⟩ ∧ d.hasRoom 1
      ∧ 1 ≤ (32#32).toNat ∧ (32#32).toNat ≤ 99999999
      ∧ d.tickets.queue.find? (fun x => x.number == (32#32).toNat) = some ⟨32, true, none, 0, 31⟩ :=
  ⟨⟨rfl, rfl, rfl, rfl⟩, by decide +kernel, ⟨rfl, by decide⟩, by decide +kernel⟩

/-- A POSTED ticket with a summary of nine groups, that is, of three parts, and a visit with the same. -/
def nineGroups : AxleSummary := { majorSummary with groups := List.replicate 9 ⟨1, 412400⟩ }
def posted : Dev :=
  { visited { visit with summary := some nineGroups } with
    tickets := { Tickets.start with
      queue := [⟨3, false, none, 0, 4⟩, ⟨5, true, some { fullTicket with number := 5, summary := some nineGroups }, 254, 3⟩] } }

/-- What a command answers, as statuses with the groups given. -/
def partsAnswered (l : Link) (d : Dev) : List (Status × Nat) :=
  (d.links.get l).tx.map fun r => (r.status, match r.body with | .groups _ _ gs => gs.length | _ => 0)

/-- R128, R194: parts 1 to 4 of nine groups: six, three, and RANGE, the take count as it stood; part 0 raises it. -/
theorem witness_TicketsAreTakenAndCleared_parts :
    posted.ready .inventory ∧ (posted.tickets.queue.find? (·.posted)).map (·.number) = some 5
      ∧ ([1#8, 2#8, 3#8, 4#8].map fun p => partsAnswered .inventory (after (.ticketTake 4#8 p) posted))
        = [[(.ok, 6)], [(.ok, 3)], [(.range, 0)], [(.range, 0)]]
      ∧ (after (.ticketTake 4#8 2#8) posted).tickets = posted.tickets
      ∧ (after (.ticketTake 4#8 0#8) posted).tickets.queue.map (·.takes) = [0, 255] :=
  ⟨⟨rfl, rfl, rfl, rfl⟩, by decide +kernel⟩

/-- R89, R106, R194: a visit read by number and by identity part by part, none so named; no tare, and a tare with the clock invalid, of
the generation in force and of another. -/
theorem witness_ReadsAnswerAtOnce_parts :
    let keys : List VisitKey := [.number 7#16, .identity truckBytes]
    let unset := fun (generation : Nat) =>
      ({ live with clock := ⟨1000, false⟩, tickets := { live.tickets with tares := [{ tare with generation := generation }] } } : Dev)
    (posted.ready .console ∧ live.ready .console ∧ ∀ g, (unset g).ready .console)
      ∧ identityOfBytes truckBytes = some truck
      ∧ posted.yard.visits.find? (·.number == (7#16).toNat) = some { visit with summary := some nineGroups }
      ∧ posted.yard.visits.find? (·.identity == truck) = some { visit with summary := some nineGroups }
      ∧ (keys.map fun k => [1#8, 2#8, 3#8].map fun p => partsAnswered .console (after (.visitRead 4#8 p k) posted))
        = List.replicate 2 [[(.ok, 6)], [(.ok, 3)], [(.range, 0)]]
      ∧ (keys.map fun k => partsAnswered .console (after (.visitRead 4#8 4#8 k) live)) = [[(.noVisit, 0)], [(.noVisit, 0)]]
      ∧ live.tickets.findTare truck = none
      ∧ ((unset 0).clock.valid = false ∧ (unset 0).metro.generation = 0)
      ∧ ([0, 13].map fun g => (after (.tareRead 4#8 truckBytes) (unset g)).links.console.tx.map fun r => match r.body with
          | .tare _ j age => (j, age) | _ => (.valid, some 0)) = [[(.timeUnset, none)], [(.generation, none)]] :=
  ⟨⟨⟨rfl, rfl, rfl, rfl⟩, ready_live _, fun _ => ⟨rfl, rfl, rfl, rfl⟩⟩, by decide +kernel⟩

theorem witness_ReadsAnswerAtOnce :
    (let d := live.raise .lane .wrongWay
     d.ready .lane ∧ (d.links.get .lane).causes = ⟨.wrongWay, 0⟩ :: [] ∧ live.ready .lane
       ∧ (live.links.get .lane).causes = []) ∧
    (live.ready .console ∧ live.ready .inventory ∧ live.ready .lane ∧ live.ready .service)
      ∧ (visited visit).yard.find (7#16).toNat = some visit ∧ identityOfBytes truckBytes = some truck
      ∧ ({ live with tickets := { live.tickets with tares := [tare] } } : Dev).tickets.findTare truck = some tare
      ∧ live.clock.valid = true ∧ (24#8).toNat ≤ 24 ∧ live.axle.pass = none ∧ passing.axle.pass = some pass
      ∧ (17#8).toNat ≤ 17 :=
  ⟨⟨⟨rfl, rfl, rfl, rfl⟩, by decide +kernel, ready_live _, by decide +kernel⟩, ⟨ready_live _, ready_live _, ready_live _, ready_live _⟩, by decide +kernel⟩

/-- A store that holds one record as written, its slot VALID in the index. -/
def holding (spec : RecordSpec) : Dev :=
  { live with nv := Memory.writeAll [] (recordWords spec 0 0),
              store := live.store.setIndex spec.region spec.slot ⟨.valid, spec.key⟩ }

/-- A ticket with no summary. -/
def plainTicket : Ticket := { fullTicket with number := 1, summary := none }

theorem witness_ArchiveReadsAnswer :
    (let d := holding (ticketSpec plainTicket)
     d.ready .console ∧ d.ready .inventory ∧ d.store.indexAt .tickets 0 = ⟨.valid, 1⟩
       ∧ (∀ r ∈ readCopy d.nv .tickets 0 0, r.cls = .clean)
       ∧ ticketOfWords 1 (bodyOfReads (readCopy d.nv .tickets 0 0)) = some plainTicket
       ∧ 1 ≤ (4#8).toNat ∧ (4#8).toNat ≤ 4)
    ∧ (let w := { fullWeighing with number := 1 }
       let d := holding (weighingSpec w)
       d.ready .console ∧ d.store.indexAt .weighings 0 = ⟨.valid, 1⟩
         ∧ (∀ r ∈ readCopy d.nv .weighings 0 0, r.cls = .clean)
         ∧ weighingOfWords 1 (bodyOfReads (readCopy d.nv .weighings 0 0)) = some w)
    ∧ (let r : TrailRecord := ⟨1, some 1000, 13, .timeSet none 5000⟩
       let d := holding (trailSpec r)
       let d : Dev := { d with metro := { d.metro with lastSeq := 1 } }
       d.ready .service ∧ 1 ≤ d.metro.lastSeq ∧ d.store.indexAt .trail 0 = ⟨.valid, 1⟩
         ∧ (∀ x ∈ readCopy d.nv .trail 0 0, x.cls = .clean)
         ∧ trailOfWords 1 (bodyOfReads (readCopy d.nv .trail 0 0)) = some r)
    ∧ (live.ready .console ∧ (live.store.setIndex .tickets 0 ⟨.given, 5⟩).indexAt .tickets 0 = ⟨.given, 5⟩) :=
  ⟨⟨⟨rfl, rfl, rfl, rfl⟩, ⟨rfl, rfl, rfl, rfl⟩, by decide +kernel⟩, ⟨⟨rfl, rfl, rfl, rfl⟩, by decide +kernel⟩,
    ⟨⟨rfl, rfl, rfl, rfl⟩, by decide +kernel⟩, ready_live _, by decide +kernel⟩

/-- The same with bits of one word inverted. -/
def harmed (spec : RecordSpec) (word : Nat) (bits : StoreWord) : Dev :=
  let d := holding spec
  let a := recordBase spec.region spec.slot 0 + word
  { d with nv := Memory.write d.nv a (Memory.read d.nv a ^^^ bits), metro := { d.metro with lastSeq := 1 } }

/-- The read of record 1 of the ticket archive or of the trail. -/
def readOf (r : Region) : Instr := if r == .trail then .trailRead 4#8 1#32 else .recordRead .console 4#8 0#8 1#32

/-- What that read shows of a harmed record: its status, the two word counts, the scrubs queued, the causes of the service link with their
repeat counts, the index class, and the findings. -/
def shown (x : RecordSpec) (word : Nat) (bits : StoreWord) : (List Status × List Nat) × List (Nat × Nat) × SlotClass × List Finding :=
  let d := after (readOf x.region) (harmed x word bits)
  (((if x.region == .trail then d.links.service else d.links.console).tx.map (·.status),
      [d.store.corrected, d.store.uncorrectable, d.store.queue.length]),
    d.links.service.causes.map fun p => (priority .service p.cause, p.repeats), (d.store.indexAt x.region 0).cls, d.metro.findings)

def firstTicket : RecordSpec := ticketSpec plainTicket
def firstTrail (time : Nat) : RecordSpec := trailSpec ⟨1, some 1000, 13, .timeSet none time⟩

/-- R137, R138, R185: a ticket and a trail record with a CORRECTED word, a DOUBLE word and a DOUBLE completion word; a trail record that
its layout bars, and a ticket found DAMAGED before. -/
theorem witness_ArchiveReadsAnswer_harmed :
    (∀ x ∈ [firstTicket, firstTrail 5000], ∀ b ∈ [(1, 1#39), (1, 3#39), (x.region.words - 1, 3#39)],
      let d := harmed x b.1 b.2
      d.phase = .running ∧ d.store.corrected ≤ 65535 ∧ d.store.uncorrectable ≤ 65535 ∧ d.store.indexAt x.region 0 = ⟨.valid, 1⟩
        ∧ d.metro.boundary = 0 ∧ d.metro.lastSeq = 1)
    ∧ shown firstTicket 1 1#39 = (([.ok], [1, 0, 1]), [], .valid, [])
    ∧ shown firstTicket 1 3#39 = (([.damaged], [0, 1, 0]), [(1, 0)], .damaged, [])
    ∧ shown firstTicket (Region.tickets.words - 1) 3#39 = (([.notFound], [0, 1, 0]), [(1, 0)], .absent, [])
    ∧ shown (firstTrail 5000) 1 1#39 = (([.ok], [1, 0, 1]), [], .valid, [])
    ∧ shown (firstTrail 5000) 1 3#39 = (([.damaged], [0, 1, 0]), [(1, 0), (3, 0)], .damaged, [⟨.damagedRecord, 1, .read⟩])
    ∧ shown (firstTrail 5000) (Region.trail.words - 1) 3#39
      = (([.notFound], [0, 1, 0]), [(1, 0), (3, 0)], .absent, [⟨.lostRecord, 1, .read⟩])
    ∧ shown (firstTrail 4294967295) 1 0#39 = (([.damaged], [0, 0, 0]), [], .valid, [])
    ∧ (let d := { harmed firstTicket 1 3#39 with store := live.store.setIndex .tickets 0 ⟨.damaged, 1⟩ }
       ((after (readOf .tickets) d).links.console.tx.map (·.status)) = [.damaged]) := by
  refine ⟨?_, ?_, ?_, ?_, ?_, ?_, ?_, ?_, ?_⟩ <;> decide +kernel

theorem witness_WeighIsAcceptedAndBound :
    (let d := { onBridge .standing 3 with yard := ⟨[visit], 7, none⟩ }
     d.ready .lane ∧ purposeOfByte 1#8 = some .weighNext ∧ identityOfBytes truckBytes = some truck ∧ d.metro.working = none
       ∧ d.metro.session = none ∧ d.clock.valid = true ∧ d.weighing.last.invalid.unmapped = false
       ∧ d.weighing.last.invalid.unset = false ∧ d.bridge.state = .standing
       ∧ (match d.bind .weighNext truck with | .ok b => b = .visit .first 7 false | .error _ => False))
    ∧ ((visited { visit with state := .held }).yard.findId truck).map (·.state) = some .held
    ∧ (visited { visit with onePass := true, commodity := some 5 }).yard.findId truck
        = some { visit with onePass := true, commodity := some 5 }
    ∧ (visited { visit with state := .opened, commodity := some 5 }).yard.findId truck
        = some { visit with state := .opened, commodity := some 5 }
    ∧ (visited { visit with state := .opened }).yard.findId truck = some { visit with state := .opened }
    ∧ live.yard.findId truck = none ∧ live.tickets.tares.length < 256 :=
  ⟨⟨⟨rfl, rfl, rfl, rfl⟩, by decide +kernel, by decide +kernel, rfl, rfl, rfl, rfl, rfl, rfl, by
    show (Binding.visit .first 7 false = _); rfl⟩, by decide +kernel⟩

theorem witness_BridgeReleaseEmptiesBridge :
    let d : Dev := { onBridge .recording 3 with bridge := { waiting.bridge with state := .recording } }
    d.ready .lane ∧ d.bridge.state = .recording ∧ waiting.ready .lane ∧ waiting.bridge.state ≠ .recording
      ∧ passing.ready .lane ∧ passing.axle.pass = some pass ∧ pass.state = .opened ∧ live.axle.pass = none :=
  ⟨⟨rfl, rfl, rfl, rfl⟩, by decide +kernel, ⟨rfl, rfl, rfl, rfl⟩, by decide +kernel, ⟨rfl, rfl, rfl, rfl⟩, by decide +kernel⟩

theorem ready_calibrating : calibrating.ready .service := ⟨rfl, rfl, rfl, rfl⟩

theorem witness_WorkingCopyIsEdited :
    (let d : Dev := { live with metro := { live.metro with switchClosed := true } }
     d.ready .service ∧ d.metro.working = none ∧ d.metro.switchClosed = true ∧ d.bridge.request = none
       ∧ d.metro.session = none)
    ∧ calibrating.ready .service ∧ calibrating.metro.working = some fitted ∧ 1 ≤ (71#8).toNat ∧ (71#8).toNat ≤ 71
      ∧ (fitted.set? (71#8).toNat (65536#32).toInt).isSome = true
      ∧ 1 ≤ (4#8).toNat ∧ (4#8).toNat ≤ 4 ∧ (17#8).toNat ≤ 17 ∧ (fitted.at 15).map ≠ some 17 ∧ (fitted.at 0).map ≠ none
      ∧ ∀ j < 16, j ≠ 15 → (fitted.at j).map ≠ some 17 :=
  ⟨⟨⟨rfl, rfl, rfl, rfl⟩, by decide +kernel⟩, ready_calibrating, by decide +kernel⟩

/-- A reference at the upper end of the adjustment range, and the corner factors of deck 1 at theirs. -/
theorem witness_SpanAndDeckScaleFactors :
    calibrating.ready .service ∧ calibrating.metro.working = some fitted ∧ 1 ≤ (43726#32).toNat
      ∧ (43726#32).toNat ≤ 200000 ∧ calibrating.bridge.state = .standing
      ∧ calibrating.weighing.last.invalid.any = false ∧ calibrating.weighing.last.range ≠ .over
      ∧ calibrating.weighing.last.stable = true ∧ (0 : Int) < 397512 ∧ (4 : Int) * 397512 ≤ 5 * (10 * 43726)
      ∧ (4 : Int) * (10 * 43726) ≤ 5 * 397512 ∧ calibrating.weighing.last.filtered = 397512
      ∧ (∀ i ∈ fitted.requiredList, (fitted.at i).gain = some 1258291 ∧ (fitted.at i).corner = some 65536)
      ∧ 1 ≤ roundDiv (1258291 * (10 * 43726)) 397512 ∧ roundDiv (1258291 * (10 * 43726)) 397512 ≤ 16777215
      ∧ 1 ≤ (1#8).toNat ∧ (1#8).toNat ≤ fitted.decks ∧ fitted.decks ≤ 4
      ∧ 58982 ≤ roundDiv (65536 * (10 * 43726)) 397512 ∧ roundDiv (65536 * (10 * 43726)) 397512 ≤ 72090 :=
  ⟨ready_calibrating, by decide +kernel⟩

theorem witness_CommitTakesEffectAtAdmission :
    calibrating.ready .service ∧ calibrating.metro.working = some fitted
      ∧ (∀ i ∈ fitted.requiredList, (fitted.at i).complete = true) ∧ fitted.max % fitted.e.kg = 0
      ∧ 500 ≤ fitted.max / fitted.e.kg ∧ fitted.max / fitted.e.kg ≤ 10000 ∧ fitted.max ≤ 200000
      ∧ calibrating.metro.current.diff fitted = [(1, some 30000, some 60000)] ∧ calibrating.clock.valid = true
      ∧ ({ fitted with max := 20000 }.diff (fitted.setAt 15 { fitted.at 15 with corner := some 65536 }))
        = [(1, some 20000, some 60000), (71, none, some 65536)]
      ∧ calibrating.metro.generation < 65535 ∧ calibrating.trailHasRoom 2 ∧ calibrating.store.waiting = []
      ∧ calibrating.store.queue.length + 1 + 3 ≤ 16 ∧ ¬ fitted.max < calibrating.metro.current.max
      ∧ ({ fitted with max := 20000 } : ParamSet).max < calibrating.metro.current.max :=
  ⟨ready_calibrating, by unfold Dev.trailHasRoom; decide +kernel⟩

theorem witness_AuditsBeginAndTakePoints :
    (let d := onBridge .empty 0
     d.ready .service ∧ d.metro.session = none ∧ d.metro.working = none ∧ d.bridge.request = none ∧ d.clock.valid = true
       ∧ d.weighing.last.invalid.unmapped = false ∧ d.weighing.last.invalid.unset = false)
    ∧ (auditing session).ready .service ∧ (auditing session).metro.session = some session ∧ session.waiting = none
      ∧ session.points.length < 24 ∧ pointKindOfByte 4#8 = some .deck ∧ pointKindOfByte 1#8 = some .zero
      ∧ 1 ≤ (200000#32).toNat ∧ (200000#32).toNat ≤ 200000 ∧ 1 ≤ (1#8).toNat ∧ (1#8).toNat ≤ session.decks :=
  ⟨⟨⟨rfl, rfl, rfl, rfl⟩, by decide +kernel⟩, ⟨rfl, rfl, rfl, rfl⟩, by decide +kernel⟩

theorem witness_AuditAbortDropsSession :
    live.ready .service ∧ live.metro.session = none ∧ (auditing session).ready .service
      ∧ (auditing session).metro.session = some session
      ∧ (let d : Dev := { onBridge .empty 0 with metro := { (auditing session).metro with current := { fitted with tracking := true } } }
         let d : Dev := { d with weighing := { d.weighing with last := { good with filtered := 5 } } }
         d.ready .service ∧ d.metro.session = some session ∧ d.metro.working = none ∧ d.metro.current.tracking = true
           ∧ d.bridge.state = .empty ∧ d.weighing.last.stable = true ∧ d.weighing.last.invalid.any = false
           ∧ (d.weighing.last.filtered.natAbs : Int) ≤ 5 * d.metro.current.e.kg) :=
  ⟨ready_live _, rfl, ⟨rfl, rfl, rfl, rfl⟩, rfl, ⟨rfl, rfl, rfl, rfl⟩, by decide +kernel⟩

theorem witness_TrailWritersAreAdmitted :
    (live.ready .service ∧ live.ready .console ∧ live.trailHasRoom 1 ∧ live.hasRoom 2 ∧ live.hasRoom 1)
      ∧ (live.metro.site.set? 38 8).isSome = true ∧ live.metro.site.get 38 ≠ 8
      ∧ (4294967294#32).toNat ≤ 4294967294
      ∧ ((auditing session).ready .service ∧ (auditing session).trailHasRoom 1 ∧ (auditing session).hasRoom 2
        ∧ (auditing session).metro.session = some session ∧ session.waiting = none)
      ∧ (let d : Dev := { live with metro := { live.metro with lastSeq := 512 } }
         d.ready .service ∧ d.hasRoom 1 ∧ d.metro.boundary < (512#32).toNat ∧ (512#32).toNat ≤ d.metro.lastSeq
           ∧ d.metro.lastSeq < 134217727) :=
  ⟨⟨ready_live _, ready_live _, by unfold Dev.trailHasRoom; decide +kernel, hasRoom_live 2 (by decide), hasRoom_live 1 (by decide)⟩,
    by decide +kernel, by decide +kernel, by decide,
    ⟨⟨rfl, rfl, rfl, rfl⟩, by unfold Dev.trailHasRoom; decide +kernel, ⟨rfl, by decide⟩, rfl, rfl⟩,
    ⟨rfl, rfl, rfl, rfl⟩, ⟨rfl, by decide⟩, by decide +kernel⟩

/-- R175: a session that meets coverage on one deck, its two REPEAT points a whole MPE apart, and its worst error. -/
def coveredSession : Session :=
  let point := fun (k : PointKind) (deck reference : Nat) (i error : Int) => (⟨k, deck, reference, i, error, 100, true, 0⟩ : AuditPoint)
  { session with e := .e20, decks := 1, inService := false, points := [
      point .zero 0 0 0 0, point .loadUp 0 1000 10007 7, point .loadUp 0 2000 19993 (-7), point .loadUp 0 3000 30000 0,
      point .deck 1 5000 50000 0, point .repeated 0 1000 10000 0, point .repeated 0 1000 10100 5] }

theorem witness_TrailWritersAreAdmitted_verdict :
    coveredSession.covered = true ∧ { coveredSession with decks := 2 }.covered = false
      ∧ { coveredSession with points := coveredSession.points.dropLast }.covered = false
      ∧ worstError coveredSession.points = 7 ∧ worstError [] = 0 := by decide +kernel

/-! ## Witnesses of refusals: for each check of a table a state that reaches it, with its status -/

/-- The statuses of what a command has answered on its link. -/
def answers (c : Instr) (l : Link) (d : Dev) : List Status := ((after c d).links.get l).tx.map (·.status)

/-- A controller with its write queue full, and one with no free space in its trail. -/
def choked (d : Dev) : Dev := { d with store := { d.store with queue := List.replicate 16 (.scrub 5) } }
def overrun (d : Dev) : Dev := { d with metro := { d.metro with lastSeq := 511 } }

/-- A controller with its clock not set, and with its last sample as given. -/
def unset (d : Dev) : Dev := { d with clock := ⟨5, false⟩ }
def sampled (x : SampleResult) (d : Dev) : Dev := { d with weighing := { d.weighing with last := x } }

/-- Samples that fail one check each. -/
def broken : SampleResult := { good with invalid := { Invalid.none with unmapped := true } }
def beyond : SampleResult := { good with range := .over }
def shaking : SampleResult := { good with stable := false }

/-- R34: the lines of its table in order. -/
theorem witness_ZeroCommandsMoveZero_refusals :
    let e := onBridge .empty 0
    let ds : List Dev := [calibrating, auditing session, onBridge .standing 3, sampled broken e, sampled beyond e, sampled shaking e, e]
    (∀ d ∈ ds, d.ready .console)
      ∧ ds.map (answers (.zero 4#8) .console)
        = [[.calMode], [.audit], [.notEmpty], [.cellFault], [.overRange], [.unstable], [.zeroRange]] := by
  unfold Dev.ready
  decide +kernel

/-- A last sample that took the two positions of the fitted set, the second port's value at fault or not. -/
def taken (faulty : Bool) : SampleResult := { good with cellValues := [⟨0, some 0, 5, false⟩, ⟨1, some 1, 5, faulty⟩] }

/-- R159: the lines of its table in order, and the capture begun. -/
theorem witness_ZeroCaptureBeginsAndCompletes_refusals :
    let e : Dev := { calibrating with bridge := { calibrating.bridge with state := .empty } }
    let ds : List Dev := [live, calibrating, sampled (taken true) e, sampled { taken false with saturated := true } e,
      sampled { taken false with stable := false } e, sampled (taken false) e]
    (∀ d ∈ ds, d.ready .service)
      ∧ ds.map (answers (.calZero 4#8) .service) = [[.notCalMode], [.notEmpty], [.cellFault], [.overRange], [.unstable], []] := by
  unfold Dev.ready
  decide +kernel

/-- R85 to R88, R107: the lines of each table in order. -/
theorem witness_ConsoleChangesAreAdmitted_refusals :
    let used : Dev := { live with yard := ⟨[visit], 7, some ⟨7, false⟩⟩ }
    let held := visited { visit with state := .held }
    let tared : Dev := { live with tickets := { live.tickets with tares := [tare] } }
    let opens : List Dev := [visited visit, { live with yard := fullYard }, choked live]
    let amends : List Dev := [live, used, choked (visited visit)]
    let releases : List Dev := [live, used, visited visit, choked held]
    let deletes : List Dev := [live, choked tared]
    (∀ d ∈ opens ++ amends ++ releases ++ deletes, d.ready .console)
      ∧ opens.map (answers (.visitOpen 4#8 truckBytes 1#8 5#16 0#8) .console) = [[.duplicate], [.registerFull], [.storeBusy]]
      ∧ amends.map (answers (.visitAmend 4#8 7#16 999#16) .console) = [[.noVisit], [.visitInUse], [.storeBusy]]
      ∧ amends.map (answers (.visitVoid 4#8 7#16) .console) = [[.noVisit], [.visitInUse], [.storeBusy]]
      ∧ releases.map (answers (.visitRelease 4#8 7#16) .console) = [[.noVisit], [.visitInUse], [.notHeld], [.storeBusy]]
      ∧ deletes.map (answers (.tareDelete 4#8 truckBytes) .console) = [[.noTare], [.storeBusy]] := by
  unfold Dev.ready
  refine ⟨?_, ?_, ?_, ?_, ?_, ?_⟩ <;> decide +kernel

/-- R128, R129: a queue of one PENDING ticket, its CLEAR, and that of a POSTED one. -/
theorem witness_TicketsAreTakenAndCleared_refusals :
    let queued : Dev := { live with tickets := { live.tickets with queue := [⟨3, false, none, 0, 0⟩] } }
    let posted : Dev := { live with tickets := fullQueue }
    let ds : List Dev := [live, queued, choked posted]
    (∀ d ∈ ds, d.ready .inventory) ∧ [live, queued].map (answers (.ticketTake 4#8 4#8) .inventory) = [[.empty], [.empty]]
      ∧ ds.map (answers (.ticketClear 4#8 3#32) .inventory) = [[.notFound], [.notPosted], [.storeBusy]] := by
  unfold Dev.ready
  refine ⟨?_, ?_, ?_⟩ <;> decide +kernel

/-- R36, R90: the lines of R36 in order, then two bindings refused. -/
theorem witness_WeighIsAcceptedAndBound_refusals :
    let b := onBridge .standing 3
    let ds : List Dev := [calibrating, auditing session, unset b, sampled broken b, onBridge .empty 0,
      { b with yard := ⟨[{ visit with state := .held }], 7, none⟩ }, { b with yard := ⟨[{ visit with state := .opened }], 7, none⟩ }]
    (∀ d ∈ ds, d.ready .lane)
      ∧ ds.map (answers (.weigh 4#8 1#8 truckBytes) .lane)
        = [[.calMode], [.audit], [.timeUnset], [.cellFault], [.notStanding], [.held], [.noCommodity]] := by
  unfold Dev.ready
  decide +kernel

/-- R154, R156, R158: CAL ENTER's lines in order; the commands of the mode outside it; a port sent to twice, and one where it is. -/
theorem witness_WorkingCopyIsEdited_refusals :
    let shut := fun (d : Dev) => ({ d with metro := { d.metro with switchClosed := true } } : Dev)
    let enters : List Dev := [calibrating, live, shut waiting, shut (auditing session)]
    (∀ d ∈ enters, d.ready .service)
      ∧ enters.map (answers (.calEnter 4#8) .service) = [[.calMode], [.switchOpen], [.bridgeBusy], [.audit]]
      ∧ [Instr.calSet 4#8 71#8 65536#32, .calExitDiscard 4#8, .mapSet 4#8 4#8 4#8 0xFF#8].map (fun c => answers c .service live)
        = List.replicate 3 [.notCalMode]
      ∧ [Instr.mapSet 4#8 1#8 1#8 1#8, .mapSet 4#8 4#8 4#8 0#8, .mapSet 4#8 1#8 1#8 0#8].map (fun c => answers c .service calibrating)
        = [[.duplicatePort], [.duplicatePort], [.ok]] := by
  unfold Dev.ready
  refine ⟨?_, ?_, ?_, ?_⟩ <;> decide +kernel

/-- R162, R163: the lines of R162 in order, the ratio before the factors; the gains at the top of their range. -/
theorem witness_SpanAndDeckScaleFactors_refusals :
    let topped : Dev := { calibrating with metro := { calibrating.metro with
      working := some (fitted.setAt 0 { cornerOf 0 with gain := some 16777215, corner := some 72090 }) } }
    let ds : List Dev := [live, { calibrating with bridge := live.bridge }, sampled broken calibrating, sampled beyond calibrating,
      sampled shaking calibrating, sampled { good with filtered := 0 } calibrating, topped]
    let statuses := [[.notCalMode], [.notStanding], [.cellFault], [.overRange], [.unstable], [.adjustRange], [Status.adjustRange]]
    (∀ d ∈ ds, d.ready .service) ∧ ds.map (answers (.calSpan 4#8 40000#32) .service) = statuses
      ∧ ds.map (answers (.calDeck 4#8 1#8 40000#32) .service) = statuses := by
  unfold Dev.ready
  refine ⟨?_, ?_, ?_⟩ <;> decide +kernel

/-- R164: the lines of its table in order, a copy without changes between RANGE and TIME_UNSET. -/
theorem witness_CommitTakesEffectAtAdmission_refusals :
    let working := fun (w : ParamSet) => ({ calibrating with metro := { calibrating.metro with working := some w } } : Dev)
    let last : Dev := { calibrating with metro := { calibrating.metro with generation := 65535 } }
    let ds : List Dev := [live, working (fitted.setAt 1 { cornerOf 1 with offset := none }), working { fitted with max := 60010 },
      working { fitted with max := 30000 }, unset calibrating, last, overrun calibrating, choked calibrating]
    (∀ d ∈ ds, d.ready .service)
      ∧ ds.map (answers (.calExitCommit 4#8) .service)
        = [[.notCalMode], [.incomplete], [.range], [.ok], [.timeUnset], [.generationLimit], [.auditFull], [.storeBusy]] := by
  unfold Dev.ready
  decide +kernel

/-- R171, R172: the lines of each table in order. -/
theorem witness_AuditsBeginAndTakePoints_refusals :
    let e := onBridge .empty 0
    let u : Session := { session with waiting := some ⟨.loadUp, 0, 32000, 0, none⟩ }
    let full : Session := { session with points := List.replicate 24 ⟨.zero, 0, 0, 0, 0, 100, true, 0⟩ }
    let begins : List Dev := [auditing session, calibrating, waiting, unset e, sampled broken e]
    let points : List Dev := [live, auditing u, auditing full, auditing session]
    (∀ d ∈ begins ++ points, d.ready .service)
      ∧ begins.map (answers (.auditBegin 4#8) .service) = [[.audit], [.calMode], [.bridgeBusy], [.timeUnset], [.cellFault]]
      ∧ points.map (answers (.auditPoint 4#8 4#8 2#8 5000#32) .service) = [[.notInAudit], [.pointBusy], [.sessionFull], [.range]] := by
  unfold Dev.ready
  refine ⟨?_, ?_, ?_⟩ <;> decide +kernel

/-- R176, R182 to R184: a value held, then the lines of each rule in order. -/
theorem witness_TrailWritersAreAdmitted_refusals :
    let u : Session := { session with waiting := some ⟨.loadUp, 0, 32000, 0, none⟩ }
    let ends : List Dev := [live, auditing u, overrun (auditing session), choked (auditing session)]
    let full : List Dev := [overrun live, choked live]
    (∀ d ∈ ends ++ full, d.ready .service ∧ d.ready .console)
      ∧ answers (.siteSet 4#8 38#8 1#32) .service live = [.ok]
      ∧ full.map (answers (.siteSet 4#8 38#8 8#32) .service) = [[.auditFull], [.storeBusy]]
      ∧ full.map (answers (.setTime 4#8 4294967294#32) .console) = [[.auditFull], [.storeBusy]]
      ∧ ends.map (answers (.auditEnd 4#8) .service) = [[.notInAudit], [.pointBusy], [.auditFull], [.storeBusy]]
      ∧ [live, choked (overrun live)].map (answers (.trailArchive 4#8 0#32) .service) = [[.nothingToArchive], [.nothingToArchive]]
      ∧ answers (.trailArchive 4#8 511#32) .service (choked (overrun live)) = [.storeBusy] := by
  unfold Dev.ready
  refine ⟨?_, ?_, ?_, ?_, ?_, ?_, ?_⟩ <;> decide +kernel

/-! ## Witnesses of clauses beside those above -/

/-- R60, R67: a CHECKED pass with no axle on its list, its gap at the timeout. -/
theorem witness_PassWindowsAndCloseFollowRules_empty :
    let p : Pass := { pass with axles := [] }
    let d : Dev := { passing with axle := ⟨100, [], some p⟩ }
    d.phase = .running ∧ d.axle.pass = some p ∧ p.state = .opened ∧ p.kind = .checked ∧ 100 * d.metro.site.gapTimeout ≤ p.gap
      ∧ ((after .passGapTimeout d).axle.pass.bind (·.summary)).map (·.groups) = some [] := by decide +kernel

/-- A store whose paired slots stand in each way: the counts 3 and 0, 1 and 0, neither copy sound, copy 1 alone;
with single slots INTERRUPTED, DAMAGED, stale and of another slot's key. -/
def pairedStore : State :=
  scanning [(countersSpec 5 .pending 0, 0, 3), (countersSpec 6 .pending 0, 1, 0), (visitSpec (openVisit 1 3) none, 0, 1),
    (visitSpec (openVisit 1 3) none, 1, 0), (tareSpec tare, 0, 1), (tareSpec tare, 1, 2), (tareSpec { tare with slot := 1 }, 0, 1),
    (tareSpec { tare with slot := 1 }, 1, 2), (trailSpec ⟨1, none, 5, .timeSet none 5⟩, 0, 0),
    (trailSpec ⟨2, none, 5, .timeSet none 5⟩, 0, 0), (⟨.trail, 3, 6, 5, [9#32]⟩, 0, 0)]
    [recordBase .tares 0 0 + 7, recordBase .tares 0 1 + 7, recordBase .tares 1 0 + 7, recordBase .tares 1 1 + 1, recordBase .trail 0 0 + 7,
      recordBase .trail 1 0]

theorem witness_ScanEndStartsBlocks_scan :
    scans pairedStore
    ∧ foundIn pairedStore = [(.counters, 0, .valid, 1), (.visits, 1, .valid, 1), (.tares, 0, .interrupted, 0),
        (.tares, 1, .damaged, 5), (.trail, 0, .interrupted, 0), (.trail, 1, .damaged, 2), (.trail, 3, .absent, 5)]
    ∧ (let k := pairedStore.dev.scan.2.store
       [k.pairAt .counters 0, k.pairAt .visits 1, k.pairAt .tares 0, k.pairAt .tares 1, k.pairAt .tares 2]
         = [⟨0, 1⟩, ⟨1, 2⟩, ⟨1, 1⟩, ⟨0, 3⟩, ⟨1, 1⟩]
       ∧ [k.indexAt .trail 0, k.indexAt .trail 1, k.indexAt .trail 3] = [⟨.interrupted, 0⟩, ⟨.damaged, 2⟩, indexDefault]) :=
  ⟨scans_of _ _ (by decide +kernel), by decide +kernel, by decide +kernel⟩

/-- Two trail records: the first with two CORRECTED words, its completion word among them, the second with two DOUBLE words. -/
def faultyStore : State :=
  let s := scanning [(trailSpec ⟨1, none, 5, .timeSet none 5⟩, 0, 0), (trailSpec ⟨2, none, 5, .timeSet none 5⟩, 0, 0)] []
  let flip := fun (nv : Memory) (a : Nat) (bits : StoreWord) => Memory.write nv a (Memory.read nv a ^^^ bits)
  rest (Dev.start
    (flip (flip (flip (flip s.dev.nv (recordBase .trail 0 0 + 1) 1#39) (recordBase .trail 0 0 + 7) 1#39)
      (recordBase .trail 1 0 + 1) 3#39) (recordBase .trail 1 0 + 6) 3#39) ⟨1000, true⟩ ⟨false, false, false⟩)

/-- R137, R138: what the scan of such a store counts, scrubs and reports; no cause of the first priority is pending before it. -/
theorem witness_ScanEndStartsBlocks_words :
    scans faultyStore ∧ foundIn faultyStore = [(.trail, 0, .valid, 1), (.trail, 1, .damaged, 2)]
    ∧ (∀ l ∈ [Link.console, .service], ∀ p ∈ (faultyStore.dev.links.get l).causes, priority l p.cause ≠ 1)
    ∧ (let d := after .startUpScanEnd faultyStore.dev
       [d.store.corrected, d.store.uncorrectable] = [2, 2]
         ∧ d.store.queue.take 2 = [.scrub (recordBase .trail 0 0 + 1), .scrub (recordBase .trail 0 0 + 7)]
         ∧ ⟨.storeFault .trail 1 (some 2) .scan, 1⟩ ∈ d.links.console.causes
         ∧ ⟨.storeFault .trail 1 (some 2) .scan, 1⟩ ∈ d.links.service.causes) :=
  ⟨⟨rfl, by unfold State.storeCanonical; decide +kernel, rfl⟩, by decide +kernel, by decide +kernel, by decide +kernel⟩

/-- R126: the posting of the ticket of a WEIGH in a queue of 32. -/
theorem witness_QueuedWritesComplete_full :
    let d := { writing (some (.weigh ⟨.ok, none⟩ [] (some 32))) with
      tickets := fullQueue, bridge := { waiting.bridge with state := .recording } }
    d.phase = .running ∧ d.store.queue = .record (visitSpec visit none) 1 1 (some (.weigh ⟨.ok, none⟩ [] (some 32))) :: []
      ∧ fullQueue.queue = ⟨1, true, none, 0, 0⟩ :: fullQueue.queue.tail ∧ fullQueue.queue.length = 32
      ∧ ((after .storeRecordWritten d).links.console.causes.map (·.cause)) = [.queueFull 32 1] := by decide +kernel

/-- R99, R112: a SECOND whose record overwrites its own first weighing, without and with a ticket; the last ticket number given. -/
theorem witness_VisitCapturesFollowRules_own :
    let v := fun (f : FirstWeighing) => { visit with state := .opened, first := some f }
    let d := fun (f : FirstWeighing) =>
      ({ onYard false (v f) with store := live.store.setIndex .weighings 0 ⟨.valid, 3⟩ } : Dev)
    (∀ f, (d f).phase = .running ∧ (d f).yard.find 7 = some (v f) ∧ (d f).hasRoom 6)
      ∧ (d lightFirst).store.weighingIn 0 = some lightFirst.number ∧ (d heavyFirst).store.weighingIn 0 = some heavyFirst.number
      ∧ lightFirst.weight < (captured .second).weight ∧ (captured .second).weight < heavyFirst.weight
      ∧ ((d lightFirst).applyCapture (captured .second)).yard.visits = []
      ∧ ((d heavyFirst).applyCapture (captured .second)).tickets.lastTicket = 1
      ∧ (({ d heavyFirst with tickets := { live.tickets with lastTicket := 99999999 } } : Dev).applyCapture (captured .second)).tickets.lastWeighing
        = 0 := by
  refine ⟨fun f => ⟨rfl, rfl, rfl, by show (0 : Nat) + 6 ≤ 16; decide⟩, ?_⟩
  decide +kernel

/-- Visit 9 of another vehicle, whose first weighing 3 the record of a capture overwrites, beside a visit or alone. -/
def otherVisit : Visit := { visit with number := 9, slot := 3, identity := [13], state := .opened, first := some lightFirst }
def expiring (hold : Bool) (vs : List Visit) : Dev :=
  { onYard hold visit with yard := ⟨vs, 9, none⟩, store := live.store.setIndex .weighings 0 ⟨.valid, 3⟩ }

/-- R99: a live visit's capture whose record overwrites another visit's first weighing, before it and behind it in the register. -/
theorem witness_VisitCapturesFollowRules_gone :
    let own := { visit with state := .opened, first := some { lightFirst with number := 4 } }
    (∀ hold, ∀ v ∈ [visit, own],
      let d := expiring hold [v, otherVisit]
      d.phase = .running ∧ d.tickets.lastWeighing < 99999999 ∧ d.yard.find v.number = some v ∧ d.store.waiting = []
        ∧ d.store.queue.length + 6 ≤ 16
        ∧ d.store.weighingIn ((d.tickets.lastWeighing + 1 - 1) % 4096) = some 3 ∧ otherVisit.first.map (·.number) = some 3
        ∧ v.first.map (·.number) ≠ some 3 ∧ otherVisit.number ≠ v.number ∧ d.yard.visits = [v] ++ otherVisit :: []
        ∧ (∀ y ∈ [v], y.first.map (·.number) ≠ some 3)
        ∧ (expiring hold [otherVisit, v]).yard.visits = [] ++ otherVisit :: [v])
    ∧ (let d := (expiring false [visit, otherVisit]).applyCapture (captured .first)
       d.yard.visits.map (·.number) = [7]
         ∧ d.store.queue.map (fun e => match e with | .record s _ _ _ => (s.region, s.slot, s.kind) | .scrub _ => (.trail, 0, 0))
           = [(.weighings, 0, 1), (.visits, 3, 0), (.visits, 0, 3)]) := by decide +kernel

/-- R94, R99: the other captures with visit 9 expiring: a bound visit that is gone, auto-open, TARE. -/
theorem witness_OtherCapturesFollowRules_gone :
    (∀ hold, let d := expiring hold [otherVisit]
      d.phase = .running ∧ d.tickets.lastWeighing < 99999999 ∧ d.store.waiting = [] ∧ d.store.queue.length + 3 ≤ 16
        ∧ d.store.weighingIn ((d.tickets.lastWeighing + 1 - 1) % 4096) = some 3 ∧ otherVisit.first.map (·.number) = some 3
        ∧ d.yard.visits = [] ++ otherVisit :: [] ∧ d.yard.find 7 = none ∧ d.yard.findId truck = none ∧ d.yard.visits.length < 64
        ∧ d.tickets.findTare truck = none ∧ d.tickets.tares.length < 256
        ∧ lowestFree (d.tickets.tares.map (·.slot)) 256 = some 0)
    ∧ (let d := (expiring false [otherVisit]).applyCapture { captured .first with binding := .autoOpen }
       d.yard.visits.map (·.number) = [10]) := by decide +kernel

/-- R94, R96: an auto-open capture that the policy holds at once. -/
theorem witness_OtherCapturesFollowRules_held :
    let d : Dev := { onYard true visit with yard := live.yard }
    let c : Capture := { captured .first with binding := .autoOpen }
    d.yard.findId truck = none ∧ d.yard.visits.length < 64 ∧ d.metro.site.hold = true ∧ d.metro.site.defaultDirection = .receival
      ∧ d.summaryFor c = some majorSummary ∧ majorSummary.worst = .major
      ∧ (d.applyCapture c).yard.visits.map (fun v => (v.number, v.state)) = [(1, .held)] := by decide +kernel

/-! ## One step of a command over those states -/

/-- R42, R199: a break on the lane link while RESTART drains ends the response of a WEIGH in RECORDING, and its record is still written. -/
theorem test_break_while_draining :
    let d := { writing (some (.weigh ⟨.ok, none⟩ [] none)) with
      phase := .draining, links := waiting.links, bridge := { waiting.bridge with state := .recording } }
    let broken := after .storeRecordWritten (after (.lineBreak .lane) d)
    (after .storeRecordWritten d).links.lane.tx.length = 1 ∧ broken.links.lane.tx = [] ∧ broken.store.queue = []
      ∧ broken.bridge.request = none := by decide +kernel

/-- R84, R151: the repair of a slot whose visit its capture is removing writes a removal. -/
theorem test_repair_of_leaving_visit :
    { visited visit with yard := ⟨[visit], 7, some ⟨7, true⟩⟩ }.ownerRecord .visits 0 = removal .visits 0 := by decide +kernel

/-- A.4: the top bit of a plain 24-bit weight is no sign; that of a weighing record's is. -/
theorem test_plain_weights :
    (tareOfWords 0 5 (tareWords { tare with weight := 8388608 })).map (·.weight) = some 8388608
    ∧ (weighingOfWords 5 (weighingWords { fullWeighing with weight := -1 })).map (·.weight) = some (-1) := by decide +kernel

/-- R164, R179, R197, R203: values that their layouts bar make a record DAMAGED: an unset scalar, a count of no PARAM records, an event
of sequence 0, an ARCHIVE of boundary 0 or of a count outside 1 to 511, a load below the field, a clock time of all ones. -/
theorem test_barred_values :
    ([TrailBody.param 3 none (some 5), .param 12 (some 3) none, .calCommit 60000 .e20 .pending 60000 .e20 0 13,
        .integrityEvent .lostRecord .scan 0, .timeSet none 4294967295, .archive 0 1 1, .archive 1 0 1, .archive 1 1 512].map fun b => trailOfWords 1 (trailSpec ⟨1, none, 0, b⟩).body)
      = List.replicate 8 none
    ∧ trailOfWords 1 (trailSpec ⟨1, none, 0, .param 9 none (some 5)⟩).body ≠ none
    ∧ tareOfWords 0 5 (tareWords { tare with time := 4294967295 }) = none
    ∧ groupsOf 1 1 28 (2 ^ 23 + 4194304) = none ∧ groupsOf 1 1 28 (2 ^ 23 + 4194305) = some [⟨1, -4194303⟩] := by
  decide +kernel

end Sys2Proof.Tests
end

