-- ==== Sys2Proof/Proofs/Crossings.lean ====
section
/-! The crossings of R26. First what each operation of the bridge monitor leaves in the bridge monitor's record, said once as an
equation; then the count and the state a crossing leaves, and the obligation from these. -/

namespace Sys2Proof.Machine

/-! ## What the operations make of the bridge monitor's record -/

@[simp] theorem Dev.changeBridge_bridge (d : Dev) (s : BridgeState) :
    (d.changeBridge s).bridge = { d.bridge with state := s } := by
  unfold Dev.changeBridge
  split
  · next same => subst same; rfl
  · rfl

@[simp] theorem Dev.endWaiting_bridge (d : Dev) (st : Status) :
    (d.endWaiting st).bridge = { d.bridge with request := none, state := .standing } := by
  simp [Dev.endWaiting]

@[simp] theorem Dev.crossStanding_bridge (d : Dev) (delta : Int) (leaving : Bool) :
    (d.crossStanding delta leaving).bridge =
      { d.bridge with count := adjustCount d.bridge.count delta, state := if leaving then .leaving else d.bridge.state } := by
  cases leaving <;> simp [Dev.crossStanding]

@[simp] theorem Dev.openPass_bridge (d : Dev) (k : PassKind) (e : EntryEnd) (followOn : Bool) (time : Nat) :
    (d.openPass k e followOn time).bridge = { d.bridge with entryEnd := e } := by
  simp [Dev.openPass]

/-- The ending of a pass moves the bridge out of ENTERING alone (R28). -/
theorem Dev.reportEnding_bridge {d : Dev} (outside : d.bridge.state ≠ .entering) (p : Pass) (r : CloseReason) :
    (d.reportEnding p r).bridge = d.bridge := by
  simp [Dev.reportEnding, outside]

/-- So does the close of a pass with its loads. -/
theorem Dev.closePass_bridge {d : Dev} (outside : d.bridge.state ≠ .entering) (p : Pass) :
    (d.closePass p).bridge = d.bridge := by
  unfold Dev.closePass
  rw [Dev.reportEnding_bridge (by simpa using outside), Dev.setPass_bridge]

/-- A directed close finds a bridge already out of ENTERING and does not move it (R28). -/
theorem Dev.closeDirected_bridge {d : Dev} (outside : d.bridge.state ≠ .entering) : d.closeDirected.bridge = d.bridge := by
  unfold Dev.closeDirected
  split
  · rfl
  · exact Dev.closePass_bridge outside _

/-- A release sets the entry end back to PAIR, whatever the state it finds (R26, R43). -/
theorem Dev.applyRelease_entryEnd (d : Dev) : d.applyRelease.bridge.entryEnd = .pair := by
  unfold Dev.applyRelease
  extract_lets was d1 d2 d3
  have released : d3.bridge.entryEnd = .pair := by simp [d3]
  split
  · exact released
  · exact released

/-! ## The count -/

/-- The count holds at ±255, so within that range the adjustment is the sum (R26). -/
theorem adjustCount_of_within {c k : Int} (low : -255 ≤ c + k) (high : c + k ≤ 255) :
    adjustCount (some c) k = some (c + k) := by
  have held : max (-255) (min 255 (c + k)) = c + k := by omega
  simp only [adjustCount, Option.map_some, held]

/-! ## Crossings handed to the bridge monitor -/

/-- R26's table at a crossing of this controller: the adjustment and whether it is leaving, by the entry end and the pass as they
stand. -/
def Dev.classOf (d : Dev) (kind : CrossingKind) : Int × Bool :=
  crossingClass kind d.bridge.entryEnd d.openPass?.isSome (d.openPass?.any (·.marks.followOn))

/-- Before the first stable sample and on an empty deck a crossing is taken no account of (R25, R26). -/
theorem Dev.bridgeCrossing_of_idle {d : Dev} (idle : d.bridge.state = .empty ∨ d.bridge.state = .start) (kind : CrossingKind) :
    d.bridgeCrossing kind = d := by
  rcases idle with state | state <;> simp only [Dev.bridgeCrossing, state]

/-- In ENTERING the count is adjusted, and a leaving crossing closes the pass after the change of state (R28). -/
theorem Dev.bridgeCrossing_of_entering {d : Dev} (state : d.bridge.state = .entering) (kind : CrossingKind) :
    d.bridgeCrossing kind =
      let counted := d.onBridge fun b => { b with count := adjustCount b.count (d.classOf kind).1 }
      if (d.classOf kind).2 then (counted.changeBridge .leaving).closeDirected else counted := by
  simp only [Dev.bridgeCrossing, state]
  rfl

/-- R28: a leaving crossing takes ENTERING to LEAVING, and the close it directs moves the bridge no further. -/
theorem Dev.bridgeCrossing_bridge_of_entering {d : Dev} (state : d.bridge.state = .entering) (kind : CrossingKind) :
    (d.bridgeCrossing kind).bridge =
      { d.bridge with
        count := adjustCount d.bridge.count (d.classOf kind).1,
        state := if (d.classOf kind).2 then .leaving else .entering } := by
  rw [Dev.bridgeCrossing_of_entering state]
  cases (d.classOf kind).2 with
  | false => simp [state]
  | true => simp [Dev.closeDirected_bridge]

/-- R29: a leaving crossing takes STANDING to LEAVING; any other adjusts the count alone. -/
theorem Dev.bridgeCrossing_bridge_of_standing {d : Dev} (state : d.bridge.state = .standing) (kind : CrossingKind) :
    (d.bridgeCrossing kind).bridge =
      { d.bridge with
        count := adjustCount d.bridge.count (d.classOf kind).1,
        state := if (d.classOf kind).2 then .leaving else .standing } := by
  have taken : d.bridgeCrossing kind = d.crossStanding (d.classOf kind).1 (d.classOf kind).2 := by
    simp only [Dev.bridgeCrossing, state]; rfl
  rw [taken, Dev.crossStanding_bridge, state]

/-- R40: a crossing ends a waiting request and is then taken as one in STANDING. -/
theorem Dev.bridgeCrossing_bridge_of_waiting {d : Dev} (state : d.bridge.state = .waiting) (kind : CrossingKind) :
    (d.bridgeCrossing kind).bridge =
      { d.bridge with
        request := none,
        count := adjustCount d.bridge.count (d.classOf kind).1,
        state := if (d.classOf kind).2 then .leaving else .standing } := by
  have taken : d.bridgeCrossing kind = (d.endWaiting .moved).crossStanding (d.classOf kind).1 (d.classOf kind).2 := by
    simp only [Dev.bridgeCrossing, state]; rfl
  rw [taken, Dev.crossStanding_bridge, Dev.endWaiting_bridge]

/-- R40: in RECORDING a leaving crossing is only noted, for the request's end. -/
theorem Dev.bridgeCrossing_bridge_of_recording {d : Dev} (state : d.bridge.state = .recording) (kind : CrossingKind) :
    (d.bridgeCrossing kind).bridge =
      { d.bridge with
        count := adjustCount d.bridge.count (d.classOf kind).1,
        leavingSeen := d.bridge.leavingSeen || (d.classOf kind).2 } := by
  simp [Dev.bridgeCrossing, state, Dev.classOf]

/-- R30: in LEAVING a crossing adjusts the count alone. -/
theorem Dev.bridgeCrossing_bridge_of_leaving {d : Dev} (state : d.bridge.state = .leaving) (kind : CrossingKind) :
    (d.bridgeCrossing kind).bridge = { d.bridge with count := adjustCount d.bridge.count (d.classOf kind).1 } := by
  simp [Dev.bridgeCrossing, state, Dev.classOf]

/-- In every state that takes account of crossings the count is adjusted by R26's table. -/
theorem Dev.bridgeCrossing_count {d : Dev} (notEmpty : d.bridge.state ≠ .empty) (notStart : d.bridge.state ≠ .start)
    (kind : CrossingKind) :
    (d.bridgeCrossing kind).bridge.count = adjustCount d.bridge.count (d.classOf kind).1 := by
  cases state : d.bridge.state with
  | start => exact absurd state notStart
  | empty => exact absurd state notEmpty
  | entering => rw [Dev.bridgeCrossing_bridge_of_entering state]
  | standing => rw [Dev.bridgeCrossing_bridge_of_standing state]
  | waiting => rw [Dev.bridgeCrossing_bridge_of_waiting state]
  | recording => rw [Dev.bridgeCrossing_bridge_of_recording state]
  | leaving => rw [Dev.bridgeCrossing_bridge_of_leaving state]

/-- Settles O24: the rows of R26's table are the branches of `crossingClass`; the rest is what the openings, the release and a
crossing in each state leave in the bridge monitor's record. -/
theorem crossingsAreClassedByTable : Obligations.CrossingsAreClassedByTable := by
  unfold Obligations.CrossingsAreClassedByTable
  refine ⟨?forward, fun _ _ => ⟨rfl, rfl⟩, rfl, rfl, ?exit, fun _ _ => rfl, Dev.applyRelease_entryEnd, ?opening,
    fun _ => rfl, fun _ _ => adjustCount_of_within, fun _ kind idle => Dev.bridgeCrossing_of_idle idle kind, ?counted⟩
  case forward => intro e _ _; cases e <;> rfl
  case exit => intro f; cases f <;> exact ⟨rfl, rfl, rfl⟩
  case opening => intro d k e f n; rw [Dev.openPass_bridge]
  case counted =>
    intro d kind notEmpty notStart
    refine ⟨Dev.bridgeCrossing_count notEmpty notStart kind, fun standing => ?_⟩
    rw [Dev.bridgeCrossing_bridge_of_standing standing]
    rfl

end Sys2Proof.Machine
end

