-- ==== Sys2Proof/Proofs/StoreWords.lean ====
section
/-! The code of a store word (R136). A parity is whether the ones it counts are odd in number; the syndrome is the number whose
bits are the six group parities; `readClass` is R136's table, one equation per row; and the data bits are taken linearly, so that
inverting a check bit leaves them. -/

namespace Sys2Proof.Machine

/-! ## Parities and the syndrome -/

/-- The parity of the selected positions is odd exactly when the ones there are odd in number. -/
theorem parityOf_eq_decide_odd (sel : Nat → Bool) (w : StoreWord) (n : Nat) :
    parityOf sel w n = decide (((List.range n).filter fun p => sel p && w.getLsbD p).length % 2 = 1) := by
  rw [← List.countP_eq_length_filter]
  induction n with
  | zero => rfl
  | succ n ih =>
    rw [parityOf, ih, List.range_succ, List.countP_append, List.countP_singleton]
    cases sel n && w.getLsbD n with
    | false => rw [Bool.false_xor, if_neg Bool.false_ne_true, Nat.add_zero]
    | true => rw [Bool.true_xor, if_pos rfl, ← decide_not, decide_eq_decide]; omega

/-- The six group parities, from the lowest bit of the syndrome upward. -/
def syndromeBits (w : StoreWord) : List Bool :=
  [syndromeBit w 0, syndromeBit w 1, syndromeBit w 2, syndromeBit w 3, syndromeBit w 4, syndromeBit w 5]

theorem toNat_ofBoolListLE_cons (b : Bool) (bs : List Bool) :
    (BitVec.ofBoolListLE (b :: bs)).toNat = (BitVec.ofBoolListLE bs).toNat * 2 + b.toNat :=
  BitVec.toNat_concat _ b

/-- The group parities are the syndrome's binary digits. -/
theorem syndrome_eq_toNat_bits (w : StoreWord) : syndrome w = (BitVec.ofBoolListLE (syndromeBits w)).toNat := by
  have empty : (BitVec.ofBoolListLE []).toNat = 0 := rfl
  simp only [syndrome, syndromeBits, toNat_ofBoolListLE_cons, empty]
  omega

theorem syndromeBits_getD (w : StoreWord) : ∀ {j : Nat}, j < 6 → (syndromeBits w).getD j false = syndromeBit w j
  | 0, _ | 1, _ | 2, _ | 3, _ | 4, _ | 5, _ => rfl

theorem syndrome_lt (w : StoreWord) : syndrome w < 64 := by
  rw [syndrome_eq_toNat_bits]
  exact BitVec.isLt _

theorem syndrome_testBit (w : StoreWord) {j : Nat} (h : j < 6) : (syndrome w).testBit j = syndromeBit w j := by
  rw [syndrome_eq_toNat_bits, BitVec.testBit_toNat, BitVec.getLsbD_ofBoolListLE, syndromeBits_getD w h]

/-- Position 0 has no bit of its number set, so leaving it out selects the same positions. -/
theorem one_le_and_testBit (p j : Nat) : (decide (1 ≤ p) && p.testBit j) = p.testBit j := by
  cases p with
  | zero => rw [Nat.zero_testBit, Bool.and_false]
  | succ p => rw [decide_eq_true (Nat.le_add_left 1 p), Bool.true_and]

theorem parityOf_blank (sel : Nat → Bool) (n : Nat) : parityOf sel 0#39 n = false := by
  induction n with
  | zero => rfl
  | succ n ih => rw [parityOf, ih, BitVec.getLsbD_zero, Bool.and_false, Bool.xor_false]

theorem syndrome_blank : syndrome 0#39 = 0 := by
  simp only [syndrome, syndromeBit, parityOf_blank, Bool.toNat_false, Nat.mul_zero, Nat.add_zero]

theorem overallParity_blank : overallParity 0#39 = false := parityOf_blank _ 39

/-! ## The table of classes -/

/-- A word never written needs no row of its own: it is clean by its syndrome and parity, and its data are 0 (R136). -/
theorem readClass_eq (w : StoreWord) :
    readClass w =
      if overallParity w then
        if syndrome w = 0 then (.correctedCheck, some (dataOf w))
        else if syndrome w ≤ 38 then (.corrected, some (dataOf (w ^^^ (1#39 <<< syndrome w))))
        else (.double, none)
      else if syndrome w = 0 then (.clean, some (dataOf w)) else (.double, none) := by
  by_cases blank : w = 0#39
  · subst blank
    rw [overallParity_blank, if_neg Bool.false_ne_true, if_pos syndrome_blank]
    rfl
  · rw [readClass, if_neg blank]
    cases overallParity w <;> rfl

/-! ## The data bits -/

/-- The data bits of a word with some positions inverted are its data bits with the data bits of the mask inverted. -/
theorem dataOf_xor (v w : StoreWord) : dataOf (v ^^^ w) = dataOf v ^^^ dataOf w := by
  simp only [dataOf, BitVec.extractLsb'_xor, ← BitVec.xor_append]

/-- No data bit stands at a check bit's position (R135). -/
theorem dataOf_checkBit : ∀ j < 6, dataOf (1#39 <<< (2 ^ j : Nat)) = 0#32 := by decide

/-- Settles O18: the counts of the statement are the parities `syndrome` and `overallParity` are made of, and each row of R136's
table is a branch of `readClass_eq`. -/
theorem wordIsClassedBySyndrome : Obligations.WordIsClassedBySyndrome := by
  unfold Obligations.WordIsClassedBySyndrome
  intro w ones odd
  have parity : overallParity w = true ↔ odd := by
    rw [overallParity, parityOf_eq_decide_odd, decide_eq_true_iff]
  refine ⟨syndrome_lt w, ?bits, ?clean, ?checkBit0, ?single, ?beyond, ?pair, ?checkBits⟩
  case bits =>
    intro j hj
    simp only [one_le_and_testBit]
    rw [syndrome_testBit w hj]
    exact parityOf_eq_decide_odd (fun p => p.testBit j) w 39
  case clean =>
    intro zero even
    rw [readClass_eq, if_neg (mt parity.1 even), if_pos zero]
  case checkBit0 =>
    intro zero isOdd
    rw [readClass_eq, if_pos (parity.2 isOdd), if_pos zero]
  case single =>
    intro low high isOdd
    rw [readClass_eq, if_pos (parity.2 isOdd), if_neg (by omega), if_pos high]
  case beyond =>
    intro beyond isOdd
    rw [readClass_eq, if_pos (parity.2 isOdd), if_neg (by omega), if_neg (by omega)]
  case pair =>
    intro low even
    rw [readClass_eq, if_neg (mt parity.1 even), if_neg (by omega)]
  case checkBits =>
    intro j hj
    rw [dataOf_xor, dataOf_checkBit j hj, BitVec.xor_zero]

end Sys2Proof.Machine
end

