-- ==== Sys2Proof/Proofs/AuditAbort.lean ====
section
/-! AUDIT ABORT (R177). First what a command's end makes of a link's responses, as rules that extend `Dev.answered` by one response;
then the end of a waiting point; then what a controller with no session refuses and counts; the obligation from these. -/

namespace Sys2Proof.Machine

/-! ## Responses formed in order on a link (R191 to R193) -/

/-- A response formed depends on the transmit queue and what waits behind it, on nothing else of the link. -/
theorem LinkState.send_congr {k j : LinkState} (tx : k.tx = j.tx) (waiting : k.waiting = j.waiting) (r : Response) :
    (k.send r).tx = (j.send r).tx ∧ (k.send r).waiting = (j.send r).waiting := by
  unfold LinkState.send
  rw [tx, waiting]
  split
  · exact ⟨rfl, rfl⟩
  · exact ⟨rfl, rfl⟩

theorem Dev.executing_answered (d : Dev) (l : Link) (code tag : Byte) : (d.executing l code tag).answered d l [] := by
  simp [Dev.answered, Dev.executing]

section
variable {t d : Dev} {l : Link} {rs : List Response}

/-- A link that has formed some responses forms one more, whatever else of the link changes before it. -/
theorem Dev.answered.onLink_send (h : t.answered d l rs) {f : LinkState → LinkState} {k : LinkState} {r : Response}
    (sent : f (t.links.get l) = k.send r) (tx : k.tx = (t.links.get l).tx) (waiting : k.waiting = (t.links.get l).waiting) :
    (t.onLink l f).answered d l (rs ++ [r]) := by
  obtain ⟨txs, waitings⟩ := h
  simpa [Dev.answered, sent] using LinkState.send_congr (tx.trans txs) (waiting.trans waitings) r

/-- The command in the slot ends with its response. -/
theorem Dev.answered.finish (h : t.answered d l rs) {code tag : Byte}
    (slot : (t.links.get l).slot = some ⟨code, tag, false⟩) (st : Status) (b : Body) :
    (t.finish l st b).answered d l (rs ++ [⟨code, tag, st, b⟩]) := by
  rw [Dev.finish_executing slot]
  exact h.onLink_send rfl rfl rfl

/-- The handed-off command ends with its response. -/
theorem Dev.answered.answerHandedOff (h : t.answered d l rs) {code tag : Byte}
    (waits : (t.links.get l).handedOff = some (code, tag)) (st : Status) (b : Body) :
    (t.answerHandedOff l st b).answered d l (rs ++ [⟨code, tag, st, b⟩]) := by
  rw [Dev.answerHandedOff_some waits]
  exact h.onLink_send rfl rfl rfl

end

/-- A change that leaves a link as it is changes nothing of the controller. -/
theorem Dev.onLink_id {d : Dev} {l : Link} {f : LinkState → LinkState} (h : f (d.links.get l) = d.links.get l) :
    d.onLink l f = d := by
  rw [Dev.onLink, Links.modify_id d.links l f h]

/-- A handed-off command that a break has ended gets no response (R190). -/
theorem Dev.answerHandedOff_none {d : Dev} {l : Link} (h : (d.links.get l).handedOff = none) (st : Status) (b : Body) :
    d.answerHandedOff l st b = d := by
  unfold Dev.answerHandedOff
  exact Dev.onLink_id (by simp only [h])

@[simp] theorem Dev.answerHandedOff_slot (d : Dev) (l : Link) (st : Status) (b : Body) :
    ((d.answerHandedOff l st b).links.get l).slot = (d.links.get l).slot := by
  unfold Dev.answerHandedOff
  rw [Dev.onLink_links, Links.get_modify]
  split
  · rfl
  · rw [LinkState.send_slot]

/-! ## A waiting point that ends (R174) -/

/-- The response of a point that ends: of a waiting point that no break has ended, by its AUDIT POINT's code and tag. -/
def pointResponse (point : Option WaitingPoint) (waits : Option (Byte × Byte)) (st : Status) : List Response :=
  match point, waits with
  | some _, some x => [⟨x.1, x.2, st, .none⟩]
  | _, _ => []

theorem Dev.endPoint_of_no_point {d : Dev} (h : d.waitingPoint = none) (st : Status) : d.endPoint st = d := by
  simp only [Dev.endPoint, h]

theorem Dev.endPoint_of_point {d : Dev} {w : WaitingPoint} (h : d.waitingPoint = some w) (st : Status) :
    d.endPoint st = d.clearPoint.answerHandedOff .service st .none := by
  simp only [Dev.endPoint, h]

/-- The end of a point changes the session and the service link alone. -/
theorem Dev.endPoint_frame (d : Dev) (st : Status) :
    d.endPoint st =
      { d with
        metro := { d.metro with session := (d.endPoint st).metro.session },
        links := { d.links with service := (d.endPoint st).links.service } } := by
  cases point : d.waitingPoint with
  | none => rw [Dev.endPoint_of_no_point point]
  | some w => rw [Dev.endPoint_of_point point]; rfl

theorem Dev.endPoint_slot (d : Dev) (st : Status) :
    ((d.endPoint st).links.get .service).slot = (d.links.get .service).slot := by
  cases point : d.waitingPoint with
  | none => rw [Dev.endPoint_of_no_point point]
  | some w => rw [Dev.endPoint_of_point point, Dev.answerHandedOff_slot]; rfl

/-- The end of a point forms its response after those the service link has formed. -/
theorem Dev.answered.endPoint {t d : Dev} {rs : List Response} (h : t.answered d .service rs) (st : Status) :
    (t.endPoint st).answered d .service (rs ++ pointResponse t.waitingPoint t.links.service.handedOff st) := by
  cases point : t.waitingPoint with
  | none =>
    rw [Dev.endPoint_of_no_point point]
    simpa [pointResponse] using h
  | some w =>
    rw [Dev.endPoint_of_point point]
    have cleared : t.clearPoint.answered d .service rs := h
    cases waits : t.links.service.handedOff with
    | none =>
      rw [Dev.answerHandedOff_none (d := t.clearPoint) (l := .service) waits]
      simpa [pointResponse] using cleared
    | some x => exact cleared.answerHandedOff waits st .none

/-! ## With no session open (R34 to R36) -/

theorem Dev.inSession_of_closed {d : Dev} (closed : d.metro.session = none) : d.inSession = false := by
  rw [Dev.inSession, closed, Option.isSome_none]

theorem Dev.weighRefusal_ne_audit {d : Dev} (closed : d.metro.session = none) : d.weighRefusal ≠ some .audit := by
  simp only [Dev.weighRefusal, Dev.inSession_of_closed closed, Bool.false_eq_true, if_false]
  repeat' split
  all_goals decide

theorem Dev.zeroRefusal_ne_audit {d : Dev} (closed : d.metro.session = none) : d.zeroRefusal ≠ some .audit := by
  simp only [Dev.zeroRefusal, Dev.inSession_of_closed closed, Bool.false_eq_true, if_false]
  repeat' split
  all_goals decide

/-- R35: outside calibration mode and a session a stable sample near zero on the empty deck raises the tracking count. -/
theorem Dev.trackingSample_counts {d : Dev} (closed : d.metro.session = none) (inactive : d.metro.working = none)
    (tracks : d.metro.current.tracking = true) (empty : d.bridge.state = .empty) (stable : d.weighing.last.stable = true)
    (valid : d.weighing.last.invalid.any = false)
    (near : (d.weighing.last.filtered.natAbs : Int) ≤ 5 * d.metro.current.e.kg) :
    d.trackingSample.weighing.tracking = min (d.weighing.tracking + 1) 100 := by
  have within := decide_eq_true near
  simp only [Dev.trackingSample, Dev.inForce, Dev.calActive, Dev.inSession_of_closed closed, Dev.lastSample, inactive, tracks,
    empty, stable, valid, Option.getD_none, within]
  rfl

/-! ## AUDIT ABORT (R177) -/

theorem exec_auditAbort (tag : Byte) (s : State) : exec (.auditAbort tag) s = s.goesTo (s.dev.auditAbort tag) := rfl

/-- With no session AUDIT ABORT is answered NOT_IN_AUDIT. -/
theorem Dev.auditAbort_of_closed {d : Dev} (ready : d.ready .service) (closed : d.metro.session = none) (tag : Byte) :
    d.auditAbort tag = d.respond .service codeAuditAbort tag .notInAudit .none := by
  unfold Dev.auditAbort
  rw [Dev.dispatch_ready ready]
  simp only [Dev.executing_metro, closed]
  exact Dev.executing_finish ready _ _ _ _

/-- In a session AUDIT ABORT ends the waiting point, closes the session and counts the points dropped. -/
theorem Dev.auditAbort_of_session {d : Dev} (ready : d.ready .service) {u : Session} (session : d.metro.session = some u)
    (tag : Byte) :
    d.auditAbort tag =
      ({ (d.executing .service codeAuditAbort tag).endPoint .aborted with
          metro := { d.metro with session := none } } : Dev).finish .service .ok (.number u.points.length) := by
  unfold Dev.auditAbort
  rw [Dev.dispatch_ready ready]
  simp only [Dev.executing_metro, session]
  rw [Dev.endPoint_frame]
  rfl

/-- The ABORTED response of a waiting point goes out before the answer. -/
theorem Dev.auditAbort_answered {d : Dev} (ready : d.ready .service) {u : Session} (session : d.metro.session = some u)
    (tag : Byte) :
    (d.auditAbort tag).answered d .service
      (pointResponse u.waiting d.links.service.handedOff .aborted ++ [⟨codeAuditAbort, tag, .ok, .number u.points.length⟩]) := by
  have point : (d.executing .service codeAuditAbort tag).waitingPoint = u.waiting := by simp [Dev.waitingPoint, session]
  have ended := (d.executing_answered .service codeAuditAbort tag).endPoint .aborted
  rw [point, List.nil_append] at ended
  rw [Dev.auditAbort_of_session ready session]
  exact Dev.answered.finish ended (Dev.endPoint_slot _ _) _ _

/-- In a session AUDIT ABORT changes the session and the service link alone. -/
theorem Dev.auditAbort_frame {d : Dev} (ready : d.ready .service) {u : Session} (session : d.metro.session = some u)
    (tag : Byte) :
    d.auditAbort tag =
      { d with
        metro := { d.metro with session := none },
        links := { d.links with service := (d.auditAbort tag).links.service } } := by
  rw [Dev.auditAbort_of_session ready session, Dev.endPoint_frame]
  rfl

/-- Settles O59: the frame gives all that stands and the closed session; the responses follow in order from the point's end and the
command's; and a controller with no session neither refuses AUDIT nor holds the tracking count. -/
theorem auditAbortDropsSession : Obligations.AuditAbortDropsSession := by
  unfold Obligations.AuditAbortDropsSession
  intro s tag ready
  refine ⟨fun closed => ?none, fun u session => ⟨s.dev.auditAbort tag, exec_auditAbort tag s, ?some⟩⟩
  case none => rw [exec_auditAbort, Dev.auditAbort_of_closed ready closed]; rfl
  case some =>
    have answers := Dev.auditAbort_answered ready session tag
    have frame := Dev.auditAbort_frame ready session tag
    generalize s.dev.auditAbort tag = t at answers frame
    have metro : t.metro = { s.dev.metro with session := none } := by rw [frame]
    have weighing : t.weighing = s.dev.weighing := by rw [frame]
    have bridge : t.bridge = s.dev.bridge := by rw [frame]
    have closed : t.metro.session = none := by rw [metro]
    refine ⟨metro, answers, by rw [frame], by rw [frame], by rw [metro], Dev.weighRefusal_ne_audit closed,
      Dev.zeroRefusal_ne_audit closed, ?counts, by rw [metro]; exact frame⟩
    case counts =>
      intro inactive tracks empty stable valid near
      rw [← weighing] at stable valid near
      rw [← bridge] at empty
      exact Dev.trackingSample_counts closed (by rw [metro]; exact inactive) (by rw [metro]; exact tracks) empty stable valid
        (by rw [metro]; exact near)

end Sys2Proof.Machine
end
